-- ==== Sys2Proof/Word.lean ====
section
/-! DEFINITION. Widths of the block's values (spec/00_scope.md rules R9, R11, R14). -/

namespace Sys2Proof

/-- A host register, a timestamp, or the value of a host access: 32 bits (R9). -/
abbrev Word := BitVec 32

/-- A payload-array, run-list or run-duration entry: 16 bits (R9). -/
abbrev Entry := BitVec 16

/-- A host byte address inside the 4 KiB window: 12 bits (R9, R69). -/
abbrev Offset := BitVec 12

/-- A frame, bit 0 first on the wire: 11 bits (R82). -/
abbrev Frame := BitVec 11

/-- A payload, bit 8 the marker: 9 bits (R81). -/
abbrev Payload := BitVec 9

/-- A logical bus level, `true` for 1, the idle level (R14). -/
abbrev Level := Bool

end Sys2Proof
end

