-- ==== Sys2Proof/Syntax.lean ====
section
/-! DEFINITION. The commands of the opcode table, the host registers, and what the environment can do to the block. -/

namespace Sys2Proof

/-- The commands of CMD, one constructor per row of spec/opcode_table.json (R102, R103). A row that covers several
reserved OP values carries the OP written. -/
inductive Instr where
  | nop
  | runsFromFrame
  | frameFromRuns
  | ticksToBitLength
  | bitLengthToTicks
  | frameFromPayload
  | payloadFromFrame
  | encodeMessage
  | decodeMessage
  | reserved9
  | reservedAB (op : BitVec 4)
  | reservedCF (op : BitVec 4)
deriving DecidableEq, Repr

/-- The registers and array entries of the host register map (R61). -/
inductive HostReg where
  | cmd | result | arg | res | runc | status | txLen | rxLen | time | txCur | rxCur | txNext | txCmp | rxElapsed
  | runv (k : Nat)
  | payOut (k : Nat)
  | txBuf (k : Nat)
  | rxBuf (k : Nat)
  | payIn (k : Nat)
deriving DecidableEq, Repr

/-- The five arrays whose reset contents the spec leaves unspecified (R60). -/
inductive ArrayName where
  | runv | payOut | payIn | txBuf | rxBuf
deriving DecidableEq, Repr

/-- The direction an AccessError carries to the host (R204). -/
inductive Direction where
  | read | write
deriving DecidableEq, Repr

/-- One action of the environment on the block: a TICK with its sampled bus level, a host access of `size` bytes
(R16), or the platform's reset input (R231). -/
inductive Input where
  | tick (busIn : Level)
  | hostRead (size : Nat) (addr : Offset)
  | hostWrite (size : Nat) (addr : Offset) (v : Word)
  | reset
deriving DecidableEq, Repr, Inhabited

end Sys2Proof
end

