-- ==== Sys2Proof/Config.lean ====
section
/-! DEFINITION. The fixed wire constants (R6), the implementation parameters (R8) and the free values. -/

namespace Sys2Proof.Config

/-- One bit interval, in µs (R6). -/
abbrev bitPeriodUs : Nat := 208

/-- Half a bit period, the rounding threshold (R6, R7). -/
abbrev halfBitUs : Nat := 104

/-- Bits per frame (R6). -/
abbrev frameBits : Nat := 11

/-- The idle gap, the RX cap and the heartbeat interval, exactly as the source writes it (R6, 90_conflicts.md C1). -/
abbrev msgPeriodUs : Nat := 2291

/-- The message terminator (R6, R83). -/
abbrev terminator : Entry := 0xFFFF#16

/-- The largest valid payload value (R81). -/
abbrev maxPayload : Nat := 0x1FF

/-- Entries of RUNV (R33). -/
abbrev runvCap : Nat := 16

/-- The implementation parameters (R8): they bound buffers and one time offset, and change no formula. -/
structure Params where
  runbufCap : Nat
  msgCap : Nat
  marginUs : Nat
deriving DecidableEq, Repr

/-- MARGIN_US of the implementation: OPEN in the spec, 0 … 207 (R8, D5, U4). A free value.
DESIGN CHOICE (notes/assumptions/5.md): safe. -/
opaque marginUs : Fin 208

/-- The parameters after power-on: the spec's default capacities (R8, D6, D7) and the open margin.
DESIGN CHOICE (notes/assumptions/4.md): safe, every statement is over all parameters. -/
def defaultParams : Params := { runbufCap := 64, msgCap := 12, marginUs := marginUs.val }

/-- The environment's action when none is scheduled: the interleaving, each `bus_in` and each host access are free
(R16, R24). A free value. DESIGN CHOICE (notes/assumptions/2.md): safe. -/
opaque freeInput : Nat → Input

/-- What entry `k` of an array holds after the `n`-th free draw: "any value" (R60, 93_implementation_defined.md U1).
A free value. DESIGN CHOICE (notes/assumptions/7.md): safe. -/
opaque freeEntry : Nat → ArrayName → Nat → Entry

/-- The base of the 4 KiB window on the host's bus: OPEN, the platform's (R69, U5). A free value.
DESIGN CHOICE (notes/assumptions/14.md): safe. -/
opaque stbrtBase : Nat

end Sys2Proof.Config
end

