-- ==== Sys2Proof/WellFormed.lean ====
section
/-! DEFINITION. Which instruction terms stand for a CMD word, and which parameters the spec admits. -/

namespace Sys2Proof

/-- An instruction term is well formed when the OP it carries is one its table row covers (R105, R140). -/
def Instr.wellFormed : Instr → Bool
  | .nop => true
  | .runsFromFrame => true
  | .frameFromRuns => true
  | .ticksToBitLength => true
  | .bitLengthToTicks => true
  | .frameFromPayload => true
  | .payloadFromFrame => true
  | .encodeMessage => true
  | .decodeMessage => true
  | .reserved9 => true
  | .reservedAB op => op == 0xA#4 || op == 0xB#4
  | .reservedCF op => op == 0xC#4 || op == 0xD#4 || op == 0xE#4 || op == 0xF#4

/-- The parameter ranges of R8. -/
def Config.Params.wellFormed (p : Config.Params) : Bool :=
  decide (2 ≤ p.runbufCap) && decide (p.runbufCap ≤ 64)
    && decide (1 ≤ p.msgCap) && decide (p.msgCap ≤ 31)
    && decide (p.marginUs ≤ 207)

end Sys2Proof
end

