-- ==== Sys2Proof/Decode.lean ====
section
/-! DEFINITION. CMD words to commands and back (R101 to R105), and host accesses to registers and back (R61, R65, R204). -/

namespace Sys2Proof

/-- OP of a CMD word: bits 3:0; bits 31:4 are ignored (R101). -/
def opField (w : Word) : BitVec 4 := w.extractLsb' 0 4

/-- The opcode map (R102, R103): every OP value is legal (R105). -/
def decodeOp (op : BitVec 4) : Instr :=
  match op.toNat with
  | 0 => .nop
  | 1 => .runsFromFrame
  | 2 => .frameFromRuns
  | 3 => .ticksToBitLength
  | 4 => .bitLengthToTicks
  | 5 => .frameFromPayload
  | 6 => .payloadFromFrame
  | 7 => .encodeMessage
  | 8 => .decodeMessage
  | 9 => .reserved9
  | 10 => .reservedAB op
  | 11 => .reservedAB op
  | _ => .reservedCF op

/-- "A decoder reads OP alone" (R101). -/
def decode (w : Word) : Instr := decodeOp (opField w)

/-- The OP value of a command (R103). -/
def encodeOp : Instr → BitVec 4
  | .nop => 0x0#4
  | .runsFromFrame => 0x1#4
  | .frameFromRuns => 0x2#4
  | .ticksToBitLength => 0x3#4
  | .bitLengthToTicks => 0x4#4
  | .frameFromPayload => 0x5#4
  | .payloadFromFrame => 0x6#4
  | .encodeMessage => 0x7#4
  | .decodeMessage => 0x8#4
  | .reserved9 => 0x9#4
  | .reservedAB op => op
  | .reservedCF op => op

/-- The CMD word of a command, `WR CMD, <OP of mnemonic>` (R106); the ignored bits are written 0. -/
def encode (i : Instr) : Word := (encodeOp i).setWidth 32

/-- The command of an instruction whose `nbits` table bits are `w`. The bus carries 32-bit numbers, not bytes (R68). -/
def decodeTableWord (nbits w : Nat) : Option Instr :=
  if nbits ≤ 32 then some (decode (BitVec.ofNat 32 (w % 2 ^ nbits))) else none

/-- Why the register map does not admit a host access (R204). -/
inductive DecodeError where
  /-- the access is not 32 bits wide -/
  | size
  /-- the offset is not a multiple of 4 -/
  | misaligned
  /-- 0x038–0x03C or 0x380–0xFFC -/
  | reservedOffset
  /-- an array entry beyond the implemented range -/
  | entryOutOfRange
deriving DecidableEq, Repr

/-- An array entry, when it lies in the implemented range `k < count` (R61, R204). -/
def entryReg (count k : Nat) (r : Nat → HostReg) : Except DecodeError HostReg :=
  if k < count then .ok (r k) else .error .entryOutOfRange

/-- The registers below the array windows (R61). -/
def scalarReg (a : Nat) : Except DecodeError HostReg :=
  match a with
  | 0x000 => .ok .cmd
  | 0x004 => .ok .result
  | 0x008 => .ok .arg
  | 0x00C => .ok .res
  | 0x010 => .ok .runc
  | 0x014 => .ok .status
  | 0x018 => .ok .txLen
  | 0x01C => .ok .rxLen
  | 0x020 => .ok .time
  | 0x024 => .ok .txCur
  | 0x028 => .ok .rxCur
  | 0x02C => .ok .txNext
  | 0x030 => .ok .txCmp
  | 0x034 => .ok .rxElapsed
  | _ => .error .reservedOffset

/-- The register map (R61) at a word-aligned offset. -/
def decodeOffset (p : Config.Params) (a : Nat) : Except DecodeError HostReg :=
  if a < 0x040 then scalarReg a
  else if a < 0x080 then entryReg Config.runvCap ((a - 0x040) / 4) .runv
  else if a < 0x100 then entryReg (p.msgCap + 1) ((a - 0x080) / 4) .payOut
  else if a < 0x200 then entryReg p.runbufCap ((a - 0x100) / 4) .txBuf
  else if a < 0x300 then entryReg p.runbufCap ((a - 0x200) / 4) .rxBuf
  else if a < 0x380 then entryReg (p.msgCap + 1) ((a - 0x300) / 4) .payIn
  else .error .reservedOffset

/-- The register a host access of `size` bytes at `addr` reaches, or why it is an AccessError (R63 to R65, R204).
CMD reads 0, so every mapped register is mapped for read too. -/
def decodeAccess (p : Config.Params) (size : Nat) (addr : Offset) : Except DecodeError HostReg :=
  if size ≠ 4 then .error .size
  else if addr.toNat % 4 ≠ 0 then .error .misaligned
  else decodeOffset p addr.toNat

/-- The offset of a register as a number (R61). -/
def regOffset : HostReg → Nat
  | .cmd => 0x000
  | .result => 0x004
  | .arg => 0x008
  | .res => 0x00C
  | .runc => 0x010
  | .status => 0x014
  | .txLen => 0x018
  | .rxLen => 0x01C
  | .time => 0x020
  | .txCur => 0x024
  | .rxCur => 0x028
  | .txNext => 0x02C
  | .txCmp => 0x030
  | .rxElapsed => 0x034
  | .runv k => 0x040 + 4 * k
  | .payOut k => 0x080 + 4 * k
  | .txBuf k => 0x100 + 4 * k
  | .rxBuf k => 0x200 + 4 * k
  | .payIn k => 0x300 + 4 * k

/-- `offset(reg)` of the host notation (R106). -/
def encodeOffset (r : HostReg) : Offset := BitVec.ofNat 12 (regOffset r)

/-- A register is implemented when it is a scalar register or an entry in its array's range (R61, R8). -/
def implemented (p : Config.Params) : HostReg → Bool
  | .runv k => decide (k < Config.runvCap)
  | .payOut k => decide (k < p.msgCap + 1)
  | .txBuf k => decide (k < p.runbufCap)
  | .rxBuf k => decide (k < p.runbufCap)
  | .payIn k => decide (k < p.msgCap + 1)
  | .cmd => true
  | .result => true
  | .arg => true
  | .res => true
  | .runc => true
  | .status => true
  | .txLen => true
  | .rxLen => true
  | .time => true
  | .txCur => true
  | .rxCur => true
  | .txNext => true
  | .txCmp => true
  | .rxElapsed => true

end Sys2Proof
end

