-- ==== Sys2Proof/Machine/State.lean ====
section
/-! DEFINITION. The state elements of spec/10_state.md, the reasons a step can stop, and the state after reset (R60). -/

namespace Sys2Proof.Machine

/-- Why a step stops. -/
inductive Fault where
  /-- AccessError, the block's only fault (R204): raised by a host access the register map does not admit, with the
  faulting offset and the direction. Safe: the spec makes it the host step's fault result, and no state changes. -/
  | accessError (addr : Offset) (dir : Direction)
deriving DecidableEq, Repr

/-- Why an instruction has no meaning. -/
inductive Refusal where
  /-- Raised by an arm of `exec` whose instruction is not modelled; no arm does. Safe: nothing runs. -/
  | notModelled (mnemonic : String)
deriving DecidableEq, Repr

/-- Completion codes (R104, R201); values 6 and 7 are never produced (U8). -/
inductive Code where
  | ok | busy | malformed | tooLong | nodata | illegalOp
deriving DecidableEq, Repr

/-- The five fields of RESULT (R37). -/
structure Result where
  code : Code
  valid : Bool
  corrupt : Bool
  trunc : Bool
  ovf : Bool
deriving DecidableEq, Repr

/-- The block's state (R21 to R57), with the model's own fields last. -/
structure State where
  /-- RUNBUF_CAP, MSG_CAP and MARGIN_US (R8); no step changes them -/
  params : Config.Params
  /-- TIME (R23) -/
  time : Word
  /-- BUS_OUT (R25) -/
  busOut : Level
  /-- ARG (R31) -/
  arg : Word
  /-- RUNC (R32) -/
  runc : BitVec 5
  /-- RUNV[0..15] (R33) -/
  runv : List Entry
  /-- PAY_OUT[0..MSG_CAP] (R34) -/
  payOut : List Entry
  /-- PAY_IN[0..MSG_CAP] (R35) -/
  payIn : List Entry
  /-- RES (R36) -/
  res : Word
  /-- RESULT (R37) -/
  result : Result
  /-- TX_BUF[0..RUNBUF_CAP-1] (R41) -/
  txBuf : List Entry
  /-- TX_LEN (R42) -/
  txLen : BitVec 16
  /-- TX_CUR (R43) -/
  txCur : BitVec 16
  /-- TX_NEXT (R44) -/
  txNext : Word
  /-- TX_CMP (R45) -/
  txCmp : Word
  /-- TX_WAIT (R46) -/
  txWait : Bool
  /-- RX_BUF[0..RUNBUF_CAP-1] (R51) -/
  rxBuf : List Entry
  /-- RX_CUR (R52) -/
  rxCur : BitVec 16
  /-- RX_LEN (R53) -/
  rxLen : BitVec 16
  /-- RX_CAPT (R54) -/
  rxCapt : Bool
  /-- RX_PREV (R55) -/
  rxPrev : Level
  /-- RX_ELAPSED (R56) -/
  rxElapsed : BitVec 12
  /-- RX_TRUNC (R57) -/
  rxTrunc : Bool
  /-- The model's own: the data lines of the host bus port after the latest completed HostRead (R16, R26) -/
  readData : Word
  /-- The model's own: environment actions already scheduled, the next one first (R16) -/
  inputs : List Input
  /-- The model's own: how many free values have been drawn -/
  draws : Nat
deriving DecidableEq, Repr

/-- RESULT with every field 0 (R37). -/
def Result.zero : Result := { code := .ok, valid := false, corrupt := false, trunc := false, ovf := false }

/-- The reset values of R60 for given parameters. The arrays, which R60 leaves unspecified, hold zeros:
DESIGN CHOICE (notes/assumptions/6.md): unsafe. -/
def State.resetWith (p : Config.Params) : State where
  params := p
  time := 0#32
  busOut := true
  arg := 0#32
  runc := 0#5
  runv := List.replicate Config.runvCap 0#16
  payOut := List.replicate (p.msgCap + 1) 0#16
  payIn := List.replicate (p.msgCap + 1) 0#16
  res := 0#32
  result := Result.zero
  txBuf := List.replicate p.runbufCap 0#16
  txLen := 0#16
  txCur := 0#16
  txNext := 0#32
  txCmp := BitVec.ofNat 32 Config.msgPeriodUs
  txWait := false
  rxBuf := List.replicate p.runbufCap 0#16
  rxCur := 0#16
  rxLen := 0#16
  rxCapt := false
  rxPrev := true
  rxElapsed := 0#12
  rxTrunc := false
  readData := 0#32
  inputs := []
  draws := 0

/-- The machine after power-on (R60, R231), with the spec's default parameters (R8). -/
def State.reset : State := State.resetWith Config.defaultParams

end Sys2Proof.Machine
end

