-- ==== Sys2Proof/Machine/Ops.lean ====
section
/-! DEFINITION. The shared operations over registers and arrays, the one fault, and the environment's next action. -/

namespace Sys2Proof.Machine

/-- The outcome type of every meaning. -/
abbrev StepOutcome := Host.Outcome State Fault Refusal

/-- Entry `k` of an array. An index beyond the array, which no run reaches, reads 0:
DESIGN CHOICE (notes/assumptions/11.md): unsafe. -/
def readEntry (a : List Entry) (k : Nat) : Entry := a.getD k 0#16

/-- `BUF[k] <- v`; an index beyond the array, which no run reaches, writes nothing. -/
def writeEntry (a : List Entry) (k : Nat) (v : Entry) : List Entry := a.set k v

/-- The array with its first entries replaced by `vs`; the later entries keep their values. -/
def overwrite : List Entry → List Entry → List Entry
  | xs, [] => xs
  | [], _ :: _ => []
  | _ :: xs, v :: vs => v :: overwrite xs vs

/-- `SetResult`: all five fields at once (R12, R104). -/
def setResult (r : Result) (s : State) : State := { s with result := r }

/-- `SetResult(code, 0, 0, 0, 0)`: a field a command does not name is written 0 (R104). -/
def codeOnly (c : Code) : Result := { code := c, valid := false, corrupt := false, trunc := false, ovf := false }

/-- `RES <- v` (R36). -/
def setRes (v : Word) (s : State) : State := { s with res := v }

/-- A command's completion: `SetResult`, and the write of CMD succeeds (R105). -/
def complete (r : Result) (s : State) : StepOutcome := .next (setResult r s)

/-- `RES <- v ; SetResult(OK, 0, 0, 0, 0)`, the completion of the scalar commands (R111). -/
def completeWithRes (v : Word) (s : State) : StepOutcome := complete (codeOnly .ok) (setRes v s)

/-- `RES <- 0 ; SetResult(code, 0, 0, 0, 0)`, a refusal that writes nothing else (R131, R135). -/
def refuseWith (c : Code) (s : State) : StepOutcome := complete (codeOnly c) (setRes 0#32 s)

/-- `raise AccessError(addr)`, the block's only fault (R204). -/
def accessError (addr : Offset) (dir : Direction) : StepOutcome := .fault (.accessError addr dir)

/-- `sdiff32(a, b)` (R12). -/
def sdiff32 (a b : Word) : Int := (a - b).toInt

/-- `trunc_32(a + n)` for a tick count `n` (R12). -/
def addTicks (a : Word) (n : Nat) : Word := a + BitVec.ofNat 32 n

/-- The environment's next action, and the state with it taken: the scheduled one, or else a free one (R16, R24).
DESIGN CHOICE (notes/assumptions/1.md, notes/assumptions/2.md): safe. -/
def takeInput (s : State) : Input × State :=
  match s.inputs with
  | [] => (Config.freeInput s.draws, { s with draws := s.draws + 1 })
  | i :: rest => (i, { s with inputs := rest })

/-- An array of `count` entries whose contents are unspecified (R60, U1). -/
def freeArray (n : Nat) (a : ArrayName) (count : Nat) : List Entry :=
  (List.range count).map (Config.freeEntry n a)

/-- The platform's reset input (R231): every element at its value of R60. The unspecified arrays hold free values,
so neither keeping nor losing the storage can be proved: DEDUCED (notes/assumptions/7.md): safe. The environment's
schedule, the parameters and the read-data lines are not state elements of R60 and stay. -/
def resetInput (s : State) : State :=
  { State.resetWith s.params with
    runv := freeArray s.draws .runv Config.runvCap
    payOut := freeArray s.draws .payOut (s.params.msgCap + 1)
    payIn := freeArray s.draws .payIn (s.params.msgCap + 1)
    txBuf := freeArray s.draws .txBuf s.params.runbufCap
    rxBuf := freeArray s.draws .rxBuf s.params.runbufCap
    readData := s.readData
    inputs := s.inputs
    draws := s.draws + 1 }

end Sys2Proof.Machine
end

