-- ==== Sys2Proof/Machine/Operands.lean ====
section
/-! DEFINITION. Operand assembly (spec/30_encoding.md rule R88): which bits of which register each command uses. -/

namespace Sys2Proof.Machine

/-- ARG[10:0], the frame of RUNS_FROM_FRAME (R88, R112). -/
def argFrame (s : State) : Frame := s.arg.extractLsb' 0 11

/-- ARG[31:0] as an unsigned number, the operand of the two duration commands (R88). -/
def argNumber (s : State) : Nat := s.arg.toNat

/-- ARG as it stands: the codec formulas mask it themselves (R88, R122, R124). -/
def argWord (s : State) : Word := s.arg

/-- `RUNV[0 … RUNC−1]`, the run list of FRAME_FROM_RUNS (R84, R114). -/
def runList (s : State) : List Nat := (s.runv.take s.runc.toNat).map BitVec.toNat

/-- The entries before the first terminator, or none when no entry is a terminator (R83, R131). -/
def untilTerminator : List Entry → Option (List Entry)
  | [] => none
  | e :: es => if e = Config.terminator then some [] else (untilTerminator es).map (e :: ·)

/-- The payloads of `PAY_OUT[0 … MSG_CAP]` before the terminator, if there is one (R131). -/
def outboundPayloads (s : State) : Option (List Entry) := untilTerminator (s.payOut.take (s.params.msgCap + 1))

/-- `RX_BUF[0 … RX_LEN−1]` as durations (R135). -/
def inboundDurations (s : State) : List Nat := (s.rxBuf.take s.rxLen.toNat).map BitVec.toNat

end Sys2Proof.Machine
end

