-- ==== Sys2Proof/Machine/Transcoder.lean ====
section
/-! DEFINITION. The bit-run transcoder commands (spec/40_transcoder.md). -/

namespace Sys2Proof.Machine

/-- The bits of a frame in wire order, bit 0 first (R11). -/
def frameBits (f : Frame) : List Level := (List.range Config.frameBits).map f.getLsbD

/-- The scan of R113 from a run of level `v` already `n` bits long: a run ends where the level changes. -/
def scanRuns (v : Level) (n : Nat) : List Level → List Nat
  | [] => [n]
  | b :: bs => if b = v then scanRuns v (n + 1) bs else n :: scanRuns b 1 bs

/-- `runs_from_frame(f)` (R113). -/
def runsFromFrame (f : Frame) : List Nat := scanRuns (f.getLsbD 0) 0 (frameBits f)

/-- The level of run `j`: `j mod 2` (R84). -/
def runLevel (j : Nat) : Level := j % 2 == 1

/-- The bits of a run list whose first run has index `j`, in wire order (R84, R115). -/
def expandRuns (j : Nat) : List Nat → List Level
  | [] => []
  | r :: rs => List.replicate r (runLevel j) ++ expandRuns (j + 1) rs

/-- The 11-bit frame whose bit `i` is `bit i`: `Σ bits[i] << i` (R115). -/
def frameOfBits (bit : Nat → Level) : Frame :=
  BitVec.ofNat 11 (((List.range Config.frameBits).map fun i => (bit i).toNat * 2 ^ i).sum)

/-- `frame_from_runs(rs)` (R115): a shortfall is padded with the final run's level, bits beyond 11 are dropped, an
empty list is the line at idle. -/
def frameFromRuns (rs : List Nat) : Frame :=
  if rs = [] then 0x7FF#11
  else frameOfBits fun i => (expandRuns 0 rs).getD i (runLevel (rs.length - 1))

/-- `ticks_to_bit_length(d)`, round half up (R117). -/
def ticksToBitLength (d : Nat) : Nat :=
  d / Config.bitPeriodUs + (if Config.halfBitUs ≤ d % Config.bitPeriodUs then 1 else 0)

/-- `bit_length_to_ticks(c)`, the product modulo 2^32 (R119). -/
def bitLengthToTicks (c : Nat) : Word := BitVec.ofNat 32 (c * Config.bitPeriodUs)

/-- RUNS_FROM_FRAME (R112). -/
def execRunsFromFrame (s : State) : StepOutcome :=
  let rs := runsFromFrame (argFrame s)
  completeWithRes (BitVec.ofNat 32 rs.length)
    { s with
      runv := overwrite s.runv (rs.map (BitVec.ofNat 16))
      runc := BitVec.ofNat 5 rs.length }

/-- FRAME_FROM_RUNS (R114). -/
def execFrameFromRuns (s : State) : StepOutcome :=
  completeWithRes ((frameFromRuns (runList s)).setWidth 32) s

/-- TICKS_TO_BIT_LENGTH (R116). -/
def execTicksToBitLength (s : State) : StepOutcome :=
  completeWithRes (BitVec.ofNat 32 (ticksToBitLength (argNumber s))) s

/-- BIT_LENGTH_TO_TICKS (R118). -/
def execBitLengthToTicks (s : State) : StepOutcome :=
  completeWithRes (bitLengthToTicks (argNumber s)) s

end Sys2Proof.Machine
end

