-- ==== Sys2Proof/Machine/FrameCodec.lean ====
section
/-! DEFINITION. The frame codec commands (spec/41_frame_codec.md). -/

namespace Sys2Proof.Machine

/-- `frame_from_payload(p)`: `((p << 1) & 0x03FF) | 0x0400` (R121); the mask keeps the result within 11 bits. -/
def frameFromPayload (p : Word) : Frame := (((p <<< 1) &&& 0x03FF#32) ||| 0x0400#32).setWidth 11

/-- The validity test of `payload_from_frame`: start bit 0 and stop bit 1 (R123). -/
def frameValid (f : Word) : Bool := (f &&& 0x0001#32) == 0#32 && (f &&& 0x0400#32) != 0#32

/-- The payload of `payload_from_frame`, extracted whether or not the frame is valid (R123). -/
def framePayload (f : Word) : Payload := ((f >>> 1) &&& 0x01FF#32).setWidth 9

/-- `payload_from_frame(f)` (R123). -/
def payloadFromFrame (f : Word) : Payload × Bool := (framePayload f, frameValid f)

/-- FRAME_FROM_PAYLOAD (R122). -/
def execFrameFromPayload (s : State) : StepOutcome :=
  completeWithRes ((frameFromPayload (argWord s)).setWidth 32) s

/-- PAYLOAD_FROM_FRAME (R124): CODE is OK even when the frame is not valid. -/
def execPayloadFromFrame (s : State) : StepOutcome :=
  let q := payloadFromFrame (argWord s)
  complete { codeOnly .ok with valid := q.2 } (setRes (q.1.setWidth 32) s)

end Sys2Proof.Machine
end

