-- ==== Sys2Proof/Machine/Message.lean ====
section
/-! DEFINITION. The message commands, NOP and the reserved opcodes (spec/42_message.md). -/

namespace Sys2Proof.Machine

/-- The marker, payload bit 8 (R81). -/
def marker (e : Entry) : Bool := e.getLsbD 8

/-- The range and marker checks of ENCODE_MESSAGE on the payloads before the terminator: not empty, each at most
0x1FF, the marker on the first only (R83, R131). -/
def wellFormedMessage : List Entry → Bool
  | [] => false
  | p :: ps =>
    (p :: ps).all (fun e => decide (e.toNat ≤ Config.maxPayload)) && marker p && ps.all (fun e => !marker e)

/-- The runs of one payload's frame (R131). -/
def payloadRuns (e : Entry) : List Nat := runsFromFrame (frameFromPayload (e.setWidth 32))

/-- The runs of a message: its frames' runs in order (R131). -/
def messageRuns (ps : List Entry) : List Nat := ps.flatMap payloadRuns

/-- A run length as a TX_BUF entry (R119, R131). -/
def runDuration (r : Nat) : Entry := (bitLengthToTicks r).setWidth 16

/-- The run count, written to TX_LEN and RES on success; TX_BUF gets the durations and keeps its later entries (R131). -/
def acceptMessage (rs : List Nat) (s : State) : StepOutcome :=
  completeWithRes (BitVec.ofNat 32 rs.length)
    { s with
      txBuf := overwrite s.txBuf (rs.map runDuration)
      txLen := BitVec.ofNat 16 rs.length }

/-- ENCODE_MESSAGE (R131): BUSY, then MALFORMED, then TOO_LONG, then success (R203). -/
def execEncodeMessage (s : State) : StepOutcome :=
  if s.txLen ≠ 0#16 then refuseWith .busy s
  else
    match outboundPayloads s with
    | none => refuseWith .malformed s
    | some ps =>
      if wellFormedMessage ps = false then refuseWith .malformed s
      else if s.params.runbufCap < (messageRuns ps).length then refuseWith .tooLong s
      else acceptMessage (messageRuns ps) s

/-- The groups of `decode_runs`: each takes runs until 11 or more bits are covered; `g` is the group so far, `acc` its
bits (R136). -/
def groupRuns (g : List Nat) (acc : Nat) : List Nat → List (List Nat)
  | [] => if g = [] then [] else [g]
  | b :: bs =>
    if acc + b < Config.frameBits then groupRuns (g ++ [b]) (acc + b) bs
    else (g ++ [b]) :: groupRuns [] 0 bs

/-- `decode_runs(bs)` (R136): each group is levelled afresh from 0. -/
def decodeRuns (bs : List Nat) : List Frame := (groupRuns [] 0 bs).map frameFromRuns

/-- The frames of the published datagram (R135). -/
def inboundFrames (s : State) : List Frame := decodeRuns ((inboundDurations s).map ticksToBitLength)

/-- Some frame fails the validity test (R135). -/
def anyInvalid (fs : List Frame) : Bool := fs.any fun f => !(payloadFromFrame (f.setWidth 32)).2

/-- The payload of a decoded frame as an array entry (R135). -/
def payloadEntry (f : Frame) : Entry := (payloadFromFrame (f.setWidth 32)).1.setWidth 16

/-- The frames of a datagram into PAY_IN with the terminator, at most MSG_CAP of them, and RX_BUF handed back (R135). -/
def deliver (fs : List Frame) (s : State) : StepOutcome :=
  let ovf := decide (s.params.msgCap < fs.length)
  let kept := fs.take s.params.msgCap
  complete
    { code := .ok, valid := false, corrupt := anyInvalid fs || ovf, trunc := s.rxTrunc, ovf := ovf }
    { setRes (BitVec.ofNat 32 kept.length) s with
      payIn := overwrite s.payIn (kept.map payloadEntry ++ [Config.terminator])
      rxLen := 0#16
      rxTrunc := false }

/-- DECODE_MESSAGE (R135): the marker rule is not checked (R138). -/
def execDecodeMessage (s : State) : StepOutcome :=
  if s.rxLen = 0#16 then refuseWith .nodata s else deliver (inboundFrames s) s

/-- NOP: RES is unchanged (R139). -/
def execNop (s : State) : StepOutcome := complete (codeOnly .ok) s

/-- A reserved opcode completes with ILLEGAL_OP and changes nothing else (R105, R140). -/
def illegalOp (s : State) : StepOutcome := complete (codeOnly .illegalOp) s

/-- OP 0x9 (R140). -/
def execReserved9 (s : State) : StepOutcome := illegalOp s

/-- OP 0xA and 0xB (R140); the OP value makes no difference. -/
def execReservedAB (_op : BitVec 4) (s : State) : StepOutcome := illegalOp s

/-- OP 0xC to 0xF (R140); the OP value makes no difference. -/
def execReservedCF (_op : BitVec 4) (s : State) : StepOutcome := illegalOp s

end Sys2Proof.Machine
end

