-- ==== Sys2Proof/Machine/Dispatch.lean ====
section
/-! DEFINITION. The dispatch of a command (spec/30_encoding.md rule R102), one arm per constructor. -/

namespace Sys2Proof.Machine

/-- `execute_command` after decoding (R102). -/
def exec (i : Instr) (s : State) : Host.Outcome State Fault Refusal :=
  match i with
  | .nop => Sys2Proof.Machine.execNop s
  | .runsFromFrame => Sys2Proof.Machine.execRunsFromFrame s
  | .frameFromRuns => Sys2Proof.Machine.execFrameFromRuns s
  | .ticksToBitLength => Sys2Proof.Machine.execTicksToBitLength s
  | .bitLengthToTicks => Sys2Proof.Machine.execBitLengthToTicks s
  | .frameFromPayload => Sys2Proof.Machine.execFrameFromPayload s
  | .payloadFromFrame => Sys2Proof.Machine.execPayloadFromFrame s
  | .encodeMessage => Sys2Proof.Machine.execEncodeMessage s
  | .decodeMessage => Sys2Proof.Machine.execDecodeMessage s
  | .reserved9 => Sys2Proof.Machine.execReserved9 s
  | .reservedAB op => Sys2Proof.Machine.execReservedAB op s
  | .reservedCF op => Sys2Proof.Machine.execReservedCF op s

end Sys2Proof.Machine
end

