-- ==== Sys2Proof/Machine/Flags.lean ====
section
/-! DEFINITION. The status words: the layout of RESULT (R104) and of STATUS (R62). -/

namespace Sys2Proof.Machine

/-- The three bits of CODE (R104). -/
def codeBits : Code → BitVec 3
  | .ok => 0#3
  | .busy => 1#3
  | .malformed => 2#3
  | .tooLong => 3#3
  | .nodata => 4#3
  | .illegalOp => 5#3

/-- The RESULT word: CODE[2:0], VALID[3], CORRUPT[4], TRUNC[5], OVF[6] (R104). -/
def resultWord (r : Result) : Word :=
  0#25 ++ BitVec.ofBool r.ovf ++ BitVec.ofBool r.trunc ++ BitVec.ofBool r.corrupt ++ BitVec.ofBool r.valid
    ++ codeBits r.code

/-- TX_BUSY: the outbound buffer is owned by the Scheduler (R62). -/
def txBusy (s : State) : Bool := s.txLen != 0#16

/-- RX_FULL: a datagram is published (R62). -/
def rxFull (s : State) : Bool := s.rxLen != 0#16

/-- The STATUS word, bits 6 down to 0: RX_TRUNC, BUS_IN, BUS_OUT, TX_WAIT, RX_CAPT, RX_FULL, TX_BUSY (R62). -/
def statusWord (s : State) : Word :=
  0#25 ++ BitVec.ofBool s.rxTrunc ++ BitVec.ofBool s.rxPrev ++ BitVec.ofBool s.busOut ++ BitVec.ofBool s.txWait
    ++ BitVec.ofBool s.rxCapt ++ BitVec.ofBool (rxFull s) ++ BitVec.ofBool (txBusy s)

end Sys2Proof.Machine
end

