-- ==== Sys2Proof/Machine/HostBus.lean ====
section
/-! DEFINITION. The host bus primitives HostRead and HostWrite (spec/20_memory.md rules R63, R64). -/

namespace Sys2Proof.Machine

/-- The value a read of a mapped register returns, zero-extended (R61, R63). CMD reads 0. -/
def readReg (s : State) : HostReg → Word
  | .cmd => 0#32
  | .result => resultWord s.result
  | .arg => s.arg
  | .res => s.res
  | .runc => s.runc.setWidth 32
  | .status => statusWord s
  | .txLen => s.txLen.setWidth 32
  | .rxLen => s.rxLen.setWidth 32
  | .time => s.time
  | .txCur => s.txCur.setWidth 32
  | .rxCur => s.rxCur.setWidth 32
  | .txNext => s.txNext
  | .txCmp => s.txCmp
  | .rxElapsed => s.rxElapsed.setWidth 32
  | .runv k => (readEntry s.runv k).setWidth 32
  | .payOut k => (readEntry s.payOut k).setWidth 32
  | .txBuf k => (readEntry s.txBuf k).setWidth 32
  | .rxBuf k => (readEntry s.rxBuf k).setWidth 32
  | .payIn k => (readEntry s.payIn k).setWidth 32

/-- A write of `v` to a mapped register (R64): CMD runs its command within the write (R101), the operand registers
take their bits of `v`, every other register ignores the write. -/
def writeReg (v : Word) (s : State) : HostReg → StepOutcome
  | .cmd => exec (decode v) s
  | .arg => .next { s with arg := v }
  | .runc => .next { s with runc := BitVec.ofNat 5 (min v.toNat Config.runvCap) }
  | .runv k => .next { s with runv := writeEntry s.runv k (v.setWidth 16) }
  | .payOut k => .next { s with payOut := writeEntry s.payOut k (v.setWidth 16) }
  | .result => .next s
  | .res => .next s
  | .status => .next s
  | .txLen => .next s
  | .rxLen => .next s
  | .time => .next s
  | .txCur => .next s
  | .rxCur => .next s
  | .txNext => .next s
  | .txCmp => .next s
  | .rxElapsed => .next s
  | .txBuf _ => .next s
  | .rxBuf _ => .next s
  | .payIn _ => .next s

/-- `HostRead(addr)` of `size` bytes: no state element of the block changes (R63, R67); the data appears on the host
bus port. -/
def hostRead (size : Nat) (addr : Offset) (s : State) : StepOutcome :=
  match decodeAccess s.params size addr with
  | .error _ => accessError addr .read
  | .ok r => .next { s with readData := readReg s r }

/-- `HostWrite(addr, v)` of `size` bytes (R64, R65). -/
def hostWrite (size : Nat) (addr : Offset) (v : Word) (s : State) : StepOutcome :=
  match decodeAccess s.params size addr with
  | .error _ => accessError addr .write
  | .ok r => writeReg v s r

end Sys2Proof.Machine
end

