-- ==== Sys2Proof/Machine/RxCapture.lean ====
section
/-! DEFINITION. The Receive Capture Engine (spec/44_rx_capture.md rules R161 to R167). -/

namespace Sys2Proof.Machine

/-- The cap as a run-duration entry (R6, R87). -/
def capEntry : Entry := BitVec.ofNat 16 Config.msgPeriodUs

/-- Microseconds since the last edge at this sample, capped at one message period (R161, R162). -/
def rxElapsedNow (s : State) : Nat := min (s.rxElapsed.toNat + 1) Config.msgPeriodUs

/-- Boundary edge while capturing: append the cap, publish, stop capturing; no new capture begins (R163, C9). -/
def rxFinalize (s : State) : State :=
  { s with
    rxBuf := writeEntry s.rxBuf s.rxCur.toNat capEntry
    rxLen := s.rxCur + 1#16
    rxCapt := false
    rxCur := 0#16 }

/-- Boundary edge while not capturing: begin when the buffer is free, else drop (R164). -/
def rxBeginOrDrop (s : State) : State :=
  if s.rxLen = 0#16 then { s with rxCapt := true, rxCur := 0#16 } else s

/-- Intra-datagram edge with room left: store the run (R165). -/
def rxStore (el : Nat) (s : State) : State :=
  { s with
    rxBuf := writeEntry s.rxBuf s.rxCur.toNat (BitVec.ofNat 16 el)
    rxCur := s.rxCur + 1#16 }

/-- Intra-datagram edge at capacity: the run is discarded and the truncated datagram published (R166). -/
def rxOverrun (s : State) : State :=
  { s with
    rxBuf := writeEntry s.rxBuf (s.params.runbufCap - 1) capEntry
    rxLen := BitVec.ofNat 16 s.params.runbufCap
    rxCapt := false
    rxCur := 0#16
    rxTrunc := true }

/-- `rx_edge(el)` (R163 to R167). A cursor beyond RUNBUF_CAP − 1, which no run reaches, counts as at capacity:
DESIGN CHOICE (notes/assumptions/11.md): unsafe. -/
def rxEdge (el : Nat) (s : State) : State :=
  if el = Config.msgPeriodUs then
    if s.rxCapt then rxFinalize s else rxBeginOrDrop s
  else if s.rxCapt then
    if s.rxCur.toNat < s.params.runbufCap - 1 then rxStore el s else rxOverrun s
  else s

/-- `rx_step(bus_in)` (R161): an edge is a sample that differs from RX_PREV. -/
def rxStep (busIn : Level) (s : State) : State :=
  if busIn ≠ s.rxPrev then
    rxEdge (rxElapsedNow s) { s with rxPrev := busIn, rxElapsed := 0#12 }
  else { s with rxElapsed := BitVec.ofNat 12 (rxElapsedNow s) }

end Sys2Proof.Machine
end

