-- ==== Sys2Proof/Machine/TxScheduler.lean ====
section
/-! DEFINITION. The Transmit Scheduler (spec/43_tx_scheduler.md rules R142 to R148). -/

namespace Sys2Proof.Machine

/-- The idle action: the idle level and the next heartbeat one message period ahead, no margin subtracted (R146). -/
def heartbeat (s : State) : State :=
  { s with busOut := true, txCmp := addTicks s.time Config.msgPeriodUs }

/-- The buffer goes back to its producer and the Scheduler goes idle (R147). -/
def drainComplete (s : State) : State :=
  { s with txLen := 0#16, txCur := 0#16, busOut := true, txCmp := addTicks s.time Config.msgPeriodUs }

/-- The re-arm distance `max(d − MARGIN_US, 1)`, computed without wrapping (R148). -/
def rearmTicks (margin d : Nat) : Nat := max (d - margin) 1

/-- The start of run `i` at the exact instant TX_NEXT: its level, its end, the next firing (R143). -/
def startRun (i : Nat) (s : State) : State :=
  let d := (readEntry s.txBuf i).toNat
  { s with
    busOut := runLevel i
    txNext := addTicks s.txNext d
    txCur := BitVec.ofNat 16 (i + 1)
    txCmp := addTicks s.time (rearmTicks s.params.marginUs d) }

/-- `tx_act()` (R143). -/
def txAct (s : State) : State :=
  if s.txCur.toNat < s.txLen.toNat then startRun s.txCur.toNat s else drainComplete s

/-- TIME has reached TX_NEXT (R142, R144). -/
def txDue (s : State) : Bool := decide (0 ≤ sdiff32 s.time s.txNext)

/-- A firing of the compare unit: heartbeat, drain start, action, or the start of a wait (R142). -/
def txFire (s : State) : State :=
  if s.txLen = 0#16 then heartbeat s
  else if s.txCur = 0#16 then txAct { s with txNext := s.time }
  else if txDue s then txAct s
  else { s with txWait := true }

/-- `tx_step()` (R142): while TX_WAIT = 1, TX_CMP is not compared. -/
def txStep (s : State) : State :=
  if s.txWait then
    if txDue s then txAct { s with txWait := false } else s
  else if s.time = s.txCmp then txFire s
  else s

end Sys2Proof.Machine
end

