-- ==== Sys2Proof/Machine/Agents.lean ====
section
/-! DEFINITION. The steps of the two agents and of the reset input (R16, R141, R231). -/

namespace Sys2Proof.Machine

/-- TIME advances modulo 2^32 (R23, R141). -/
def advanceTime (s : State) : State := { s with time := s.time + 1#32 }

/-- TICK: TIME, then the Receive Capture Engine, then the Transmit Scheduler (R141). -/
def tick (busIn : Level) (s : State) : State := txStep (rxStep busIn (advanceTime s))

/-- One action of the environment, one atomic step (R16, R66, R231). -/
def act (i : Input) (s : State) : StepOutcome :=
  match i with
  | .tick busIn => .next (tick busIn s)
  | .hostRead size addr => hostRead size addr s
  | .hostWrite size addr v => hostWrite size addr v s
  | .reset => .next (resetInput s)

/-- The data a read returns with its AccessError is 0; a faulted write returns none (R204). -/
def busErrorData (dir : Direction) (s : State) : State :=
  match dir with
  | .read => { s with readData := 0#32 }
  | .write => s

/-- The block after one action, an AccessError included: the fault is the host step's result, it is "not a state of the
block, which carries on ticking" (R204, R202). DEDUCED (notes/assumptions/8.md): safe. -/
def afterAct (i : Input) (s : State) : State :=
  match act i s with
  | .next t => t
  | .fault (.accessError _ dir) => busErrorData dir s
  | .refused _ => s

/-- The block after a finite sequence of actions (R16). -/
def afterActs : List Input → State → State
  | [], s => s
  | i :: is, s => afterActs is (afterAct i s)

/-- The block after one TICK for each sampled level, with no host step between (the IDLE of R106). -/
def ticks : List Level → State → State
  | [], s => s
  | b :: bs, s => ticks bs (tick b s)

end Sys2Proof.Machine
end

