-- ==== Sys2Proof/Machine/HostProgram.lean ====
section
/-! DEFINITION. The host notation WR, RD, CMD, POLL and the pseudo-instructions (R106, R107), and the window (R69). -/

namespace Sys2Proof.Machine

/-- `WR <reg>, <value>` (R106). -/
def wr (r : HostReg) (v : Word) : Input := .hostWrite 4 (encodeOffset r) v

/-- `RD <reg>` (R106). -/
def rd (r : HostReg) : Input := .hostRead 4 (encodeOffset r)

/-- A write of any 32-bit value to CMD (R101). -/
def wrCmd (v : Word) : Input := wr .cmd v

/-- `CMD <mnemonic>` (R106). -/
def cmd (i : Instr) : Input := wrCmd (encode i)

/-- The exit test of `POLL <reg>, <mask>, <val>` on a value read (R106). -/
def pollDone (t mask val : Word) : Bool := (t &&& mask) == val

/-- IS_SEND_BUFFER_FREE on the STATUS word read (R107). -/
def isSendBufferFree (status : Word) : Bool := !status.getLsbD 0

/-- HAS_RECEIVED_DATA on the STATUS word read (R107). -/
def hasReceivedData (status : Word) : Bool := status.getLsbD 1

/-- The writes of `ps` to PAY_OUT from entry `k` on (R107). -/
def payOutWrites (k : Nat) : List Entry → List Input
  | [] => []
  | p :: ps => wr (.payOut k) (p.setWidth 32) :: payOutWrites (k + 1) ps

/-- TRY_SEND: the payloads and the terminator, the command, the read of RESULT (R107). -/
def trySend (ps : List Entry) : List Input :=
  payOutWrites 0 (ps ++ [Config.terminator]) ++ [cmd .encodeMessage, rd .result]

/-- The `accepted` of TRY_SEND on the RESULT word read (R107). -/
def accepted (result : Word) : Bool := result.extractLsb' 0 3 == 0#3

/-- TRY_RECEIVE, its first two steps: the command and the read of RESULT (R107). -/
def tryReceive : List Input := [cmd .decodeMessage, rd .result]

/-- TRY_RECEIVE returned a value: CODE is not NODATA (R107). -/
def received (result : Word) : Bool := result.extractLsb' 0 3 != 4#3

/-- The `corrupted` of TRY_RECEIVE on the RESULT word read (R107). -/
def corrupted (result : Word) : Bool := result.getLsbD 4

/-- TRY_RECEIVE, the reads that follow when a value was received: RES = `n`, then `n` entries of PAY_IN (R107). -/
def tryReceiveReads (n : Nat) : List Input := rd .res :: (List.range n).map fun k => rd (.payIn k)

/-- The address of a register on the host's bus (R69). -/
def busAddress (r : HostReg) : Nat := Config.stbrtBase + (encodeOffset r).toNat

/-- The offset of a bus address inside the block's 4 KiB window (R69). -/
def windowOffset (addr : Nat) : Option Offset :=
  if Config.stbrtBase ≤ addr ∧ addr < Config.stbrtBase + 4096 then
    some (BitVec.ofNat 12 (addr - Config.stbrtBase))
  else none

end Sys2Proof.Machine
end

