-- ==== Sys2Proof/Machine/Step.lean ====
section
/-! DEFINITION. One step of the machine, and where the next command stands. -/

namespace Sys2Proof.Machine

/-- One step: the environment's next action, in full (R16, R66). -/
def step (s : State) : Host.Outcome State Fault Refusal := act (takeInput s).1 (takeInput s).2

/-- The state whose very next action is the host's write to CMD of the word whose `nbits` low bits are `w`
(R101). DESIGN CHOICE (notes/assumptions/3.md): safe. -/
def State.withFetchWord (s : State) (nbits w : Nat) : State :=
  { s with inputs := wrCmd (BitVec.ofNat 32 (w % 2 ^ nbits)) :: s.inputs }

end Sys2Proof.Machine
end

