-- ==== Sys2Proof/Safety.lean ====
section
/-! DEFINITION. What counts as a safe state and a safe run: the invariants of 10_state.md rules R58 and R59 and of the
buffers' contents (R85, R87), the engines' own state (R141), and the instants of the output (R149). -/

namespace Sys2Proof

open Machine

/-- Every array has the number of entries its rule gives it (R33, R34, R35, R41, R51). -/
abbrev Sized (s : State) : Prop :=
  s.runv.length = Config.runvCap ∧ s.payOut.length = s.params.msgCap + 1 ∧ s.payIn.length = s.params.msgCap + 1
    ∧ s.txBuf.length = s.params.runbufCap ∧ s.rxBuf.length = s.params.runbufCap

/-- The Transmit Scheduler's invariant (R58). -/
abbrev TxInvariant (s : State) : Prop :=
  s.txCur.toNat ≤ s.txLen.toNat ∧ s.txLen.toNat ≤ s.params.runbufCap
    ∧ (0 < s.txCur.toNat → 0 < s.txLen.toNat) ∧ (s.txWait = true → 0 < s.txCur.toNat)

/-- The Receive Capture Engine's invariant (R59). -/
abbrev RxInvariant (s : State) : Prop :=
  (s.rxCapt = true → s.rxLen = 0#16) ∧ s.rxCur.toNat ≤ s.params.runbufCap - 1
    ∧ s.rxLen.toNat ≤ s.params.runbufCap

/-- RUNC and RX_ELAPSED hold legal values (R32, R56). -/
abbrev LegalCounts (s : State) : Prop :=
  s.runc.toNat ≤ Config.runvCap ∧ s.rxElapsed.toNat ≤ Config.msgPeriodUs

/-- The invariant of every reachable state: admitted parameters (R8), sized arrays, R58, R59 and legal counts. -/
abbrev Safe (s : State) : Prop :=
  s.params.wellFormed = true ∧ Sized s ∧ TxInvariant s ∧ RxInvariant s ∧ LegalCounts s

/-- The durations waiting in TX_BUF are those ENCODE_MESSAGE produces (R85), the compare unit is armed at most one
message period ahead and never disarmed (R142, R205), a firing comes MARGIN_US early (R148) and a wait is bounded by
MARGIN_US (R144). -/
abbrev TxTimed (s : State) : Prop :=
  (∀ j < s.txLen.toNat, 208 ≤ (readEntry s.txBuf j).toNat ∧ (readEntry s.txBuf j).toNat ≤ 2080)
    ∧ (s.txWait = false → 1 ≤ (s.txCmp - s.time).toNat ∧ (s.txCmp - s.time).toNat ≤ Config.msgPeriodUs)
    ∧ (s.txWait = true → 1 ≤ (s.txNext - s.time).toNat ∧ (s.txNext - s.time).toNat ≤ s.params.marginUs)
    ∧ (s.txWait = false → 0 < s.txCur.toNat →
        (s.txNext - s.time).toNat = (s.txCmp - s.time).toNat + s.params.marginUs)

/-- The line is at the idle level 1 while no run is being driven (R14, R86). -/
abbrev IdleLevel (s : State) : Prop := s.txCur = 0#16 → s.busOut = true

/-- A measured run of RX_BUF: below the cap, and at least one tick (R85, R162). -/
abbrev measuredRun (e : Entry) : Prop := 1 ≤ e.toNat ∧ e.toNat < Config.msgPeriodUs

/-- What RX_BUF holds: measured runs below the cursor while capturing, and in a published datagram measured runs
followed by one terminating cap entry (R85, R87). -/
abbrev RxContents (s : State) : Prop :=
  (s.rxCapt = true → ∀ j < s.rxCur.toNat, measuredRun (readEntry s.rxBuf j))
    ∧ (s.rxLen ≠ 0#16 →
        (∀ j < s.rxLen.toNat - 1, measuredRun (readEntry s.rxBuf j))
          ∧ readEntry s.rxBuf (s.rxLen.toNat - 1) = capEntry)

/-- A host access of `size` bytes at `addr` the register map does not admit: a size other than 32 bits, a misaligned or
reserved offset, or an array entry beyond the implemented range (R204). -/
abbrev NotAdmitted (p : Config.Params) (size : Nat) (addr : Offset) : Prop :=
  size ≠ 4 ∨ addr.toNat % 4 ≠ 0
    ∨ (0x038 ≤ addr.toNat ∧ addr.toNat < 0x040) ∨ 0x380 ≤ addr.toNat
    ∨ (0x080 + 4 * (p.msgCap + 1) ≤ addr.toNat ∧ addr.toNat < 0x100)
    ∨ (0x100 + 4 * p.runbufCap ≤ addr.toNat ∧ addr.toNat < 0x200)
    ∨ (0x200 + 4 * p.runbufCap ≤ addr.toNat ∧ addr.toNat < 0x300)
    ∨ (0x300 + 4 * (p.msgCap + 1) ≤ addr.toNat ∧ addr.toNat < 0x380)

/-- The state elements that only the Transmit Scheduler moves on a TICK (R141). -/
structure TxView where
  busOut : Level
  txLen : BitVec 16
  txCur : BitVec 16
  txNext : Word
  txCmp : Word
  txWait : Bool
deriving DecidableEq, Repr

/-- The Transmit Scheduler's part of a state. -/
def txView (s : State) : TxView :=
  { busOut := s.busOut, txLen := s.txLen, txCur := s.txCur, txNext := s.txNext, txCmp := s.txCmp, txWait := s.txWait }

/-- The state elements that only the Receive Capture Engine moves on a TICK (R141). -/
structure RxView where
  rxBuf : List Entry
  rxCur : BitVec 16
  rxLen : BitVec 16
  rxCapt : Bool
  rxPrev : Level
  rxElapsed : BitVec 12
  rxTrunc : Bool
deriving DecidableEq, Repr

/-- The Receive Capture Engine's part of a state. -/
def rxView (s : State) : RxView :=
  { rxBuf := s.rxBuf, rxCur := s.rxCur, rxLen := s.rxLen, rxCapt := s.rxCapt, rxPrev := s.rxPrev,
    rxElapsed := s.rxElapsed, rxTrunc := s.rxTrunc }

/-- The duration of run `j` of TX_BUF in ticks (R85). -/
def runTicks (s : State) (j : Nat) : Nat := (readEntry s.txBuf j).toNat

/-- `Σ_{j<k} dj`, the start of run `k` in ticks after the drain start (R149). -/
def runStart (s : State) (k : Nat) : Nat := ((List.range k).map (runTicks s)).sum

/-- The bits a run-duration list puts on the wire, entry `j` at level `j mod 2` (R85, R132). -/
def wireBits (ds : List Entry) : List Level := expandRuns 0 (ds.map fun d => d.toNat / Config.bitPeriodUs)

/-- The frame of a payload by fields: start bit 0, `payload[8:0]`, stop bit 1 (R82). -/
def frameOf (p : Payload) : Frame := (p.setWidth 11 <<< 1) ||| 0x400#11

/-- The durations a list of frames is sent as (R86, R119). -/
def frameDurations (fs : List Frame) : List Entry :=
  fs.flatMap fun f => (runsFromFrame f).map fun r => BitVec.ofNat 16 (208 * r)

/-- A well-formed message of R83 within the message capacity `cap`, without its terminator. -/
abbrev ValidMessage (cap : Nat) (ps : List Entry) : Prop :=
  ps ≠ [] ∧ ps.length ≤ cap ∧ (∀ p ∈ ps, p.toNat ≤ 0x1FF)
    ∧ (∀ p ∈ ps.take 1, p.getLsbD 8 = true) ∧ (∀ p ∈ ps.drop 1, p.getLsbD 8 = false)

/-- The frames of a message's payloads (R82, R86). -/
def messageFrames (ps : List Entry) : List Frame := ps.map fun p => frameOf (p.setWidth 9)

end Sys2Proof
end

