-- ==== Sys2Proof/Certificates/Slice0/Obligations.lean ====
section
/-! DEFINITION. The statements for the provers, from the numbered rules of spec/. -/

open Sys2Proof Sys2Proof.Machine

/-! ### Commands -/

/-- R139: NOP clears RESULT and leaves RES and everything else. -/
def Obligations.NopWritesResultAlone : Prop :=
  ∀ s : State, exec .nop s = .next { s with result := ⟨.ok, false, false, false, false⟩ }

/-- R140, R105: every reserved OP, in each of its three rows and as any word written to CMD, completes with ILLEGAL_OP
and changes nothing else. -/
def Obligations.ReservedOpcodesChangeResultAlone : Prop :=
  ∀ s : State,
    (∀ w : Word, 9 ≤ w.toNat % 16 →
      hostWrite 4 0x000#12 w s = .next { s with result := ⟨.illegalOp, false, false, false, false⟩ })
    ∧ exec .reserved9 s = .next { s with result := ⟨.illegalOp, false, false, false, false⟩ }
    ∧ ∀ op : BitVec 4,
        exec (.reservedAB op) s = .next { s with result := ⟨.illegalOp, false, false, false, false⟩ }
        ∧ exec (.reservedCF op) s = .next { s with result := ⟨.illegalOp, false, false, false, false⟩ }

/-- R112, R113: RUNS_FROM_FRAME writes the maximal runs of ARG[10:0], bit 0 first: the only list of positive lengths
whose alternating expansion from the level of bit 0 is the frame. -/
def Obligations.RunsFromFrameWritesTheMaximalRuns : Prop :=
  ∀ s : State, s.runv.length = 16 →
    ∃ rs : List Nat, (∀ r ∈ rs, 1 ≤ r) ∧ rs.sum = 11 ∧ 1 ≤ rs.length ∧ rs.length ≤ 11
      ∧ (∀ i < 11, ((expandRuns 0 rs).map fun l => l ^^ s.arg.getLsbD 0)[i]? = some (s.arg.getLsbD i))
      ∧ exec .runsFromFrame s = .next
          { s with
            runv := rs.map (BitVec.ofNat 16) ++ s.runv.drop rs.length
            runc := BitVec.ofNat 5 rs.length
            res := BitVec.ofNat 32 rs.length
            result := ⟨.ok, false, false, false, false⟩ }

/-- R114, R115: FRAME_FROM_RUNS gives bit `i` the level `j mod 2` of the run `j` that covers it, pads a shortfall with
the final run's level, drops bits beyond 11, and gives 0x7FF for no runs. -/
def Obligations.FrameFromRunsExpandsTheRuns : Prop :=
  ∀ (s : State) (rs : List Nat), rs = (s.runv.take s.runc.toNat).map BitVec.toNat →
    ∃ f : Frame,
      exec .frameFromRuns s
          = .next { s with res := f.setWidth 32, result := ⟨.ok, false, false, false, false⟩ }
        ∧ (rs = [] → f = 0x7FF#11)
        ∧ (∀ j < rs.length, ∀ i < 11, (rs.take j).sum ≤ i → i < (rs.take (j + 1)).sum →
            f.getLsbD i = (j % 2 == 1))
        ∧ (rs ≠ [] → ∀ i < 11, rs.sum ≤ i → f.getLsbD i = ((rs.length - 1) % 2 == 1))

/-- R116, R117: TICKS_TO_BIT_LENGTH gives the nearest bit count, half rounded up. -/
def Obligations.TicksToBitLengthRoundsHalfUp : Prop :=
  ∀ s : State, ∃ n : Word,
    exec .ticksToBitLength s = .next { s with res := n, result := ⟨.ok, false, false, false, false⟩ }
      ∧ 208 * n.toNat ≤ s.arg.toNat + 104 ∧ s.arg.toNat + 104 < 208 * (n.toNat + 1)

/-- R118, R119: BIT_LENGTH_TO_TICKS multiplies by the bit period modulo 2^32. -/
def Obligations.BitLengthToTicksMultiplies : Prop :=
  ∀ s : State, ∃ n : Word,
    exec .bitLengthToTicks s = .next { s with res := n, result := ⟨.ok, false, false, false, false⟩ }
      ∧ n.toNat = s.arg.toNat * 208 % 2 ^ 32

/-- R121, R122: FRAME_FROM_PAYLOAD puts ARG[8:0] between start bit 0 and stop bit 1 and drops the rest of ARG. -/
def Obligations.FrameFromPayloadFramesLowNineBits : Prop :=
  ∀ s : State, ∃ f : Word,
    exec .frameFromPayload s = .next { s with res := f, result := ⟨.ok, false, false, false, false⟩ }
      ∧ ∀ i < 32, f.getLsbD i = (i == 10 || (decide (1 ≤ i ∧ i ≤ 9) && s.arg.getLsbD (i - 1)))

/-- R123, R124: PAYLOAD_FROM_FRAME extracts bits 9:1 whether or not the frame is valid; VALID says start bit 0 and stop
bit 1; CODE is OK either way. -/
def Obligations.PayloadFromFrameExtractsAndValidates : Prop :=
  ∀ s : State, ∃ p : Word,
    exec .payloadFromFrame s
        = .next { s with res := p, result := ⟨.ok, !s.arg.getLsbD 0 && s.arg.getLsbD 10, false, false, false⟩ }
      ∧ ∀ i < 32, p.getLsbD i = (decide (i < 9) && s.arg.getLsbD (i + 1))

/-- R131: ENCODE_MESSAGE on a valid message that fits writes its runs' durations, its run count, and nothing else. -/
def Obligations.EncodeMessageAcceptsAValidMessage : Prop :=
  ∀ (s : State) (ps rest ds : List Entry), Safe s → s.txLen = 0#16 → s.payOut = ps ++ 0xFFFF#16 :: rest →
    ValidMessage s.params.msgCap ps → ds = frameDurations (messageFrames ps) → ds.length ≤ s.params.runbufCap →
    exec .encodeMessage s = .next
      { s with
        txBuf := ds ++ s.txBuf.drop ds.length
        txLen := BitVec.ofNat 16 ds.length
        res := BitVec.ofNat 32 ds.length
        result := ⟨.ok, false, false, false, false⟩ }

/-- R131, R203: ENCODE_MESSAGE refuses in the order BUSY, MALFORMED (no terminator; then empty, range or marker),
TOO_LONG, and a refusal writes RES and RESULT alone. -/
def Obligations.EncodeMessageRefusesInOrder : Prop :=
  ∀ s : State, s.payOut.length = s.params.msgCap + 1 →
    (s.txLen ≠ 0#16 →
      exec .encodeMessage s = .next { s with res := 0#32, result := ⟨.busy, false, false, false, false⟩ })
    ∧ (s.txLen = 0#16 → (∀ e ∈ s.payOut, e ≠ 0xFFFF#16) →
      exec .encodeMessage s = .next { s with res := 0#32, result := ⟨.malformed, false, false, false, false⟩ })
    ∧ ∀ ps rest : List Entry, s.txLen = 0#16 → s.payOut = ps ++ 0xFFFF#16 :: rest →
        (∀ p ∈ ps, p ≠ 0xFFFF#16) →
        (¬ ValidMessage s.params.msgCap ps →
          exec .encodeMessage s = .next { s with res := 0#32, result := ⟨.malformed, false, false, false, false⟩ })
        ∧ (ValidMessage s.params.msgCap ps →
            s.params.runbufCap < (frameDurations (messageFrames ps)).length →
          exec .encodeMessage s = .next { s with res := 0#32, result := ⟨.tooLong, false, false, false, false⟩ })

/-- R135, R136: DECODE_MESSAGE with nothing published answers NODATA; else it groups the rounded runs, each group ending
where it reaches 11 bits, writes the groups' payloads and the terminator, reports CORRUPT, TRUNC and OVF, and hands
RX_BUF back. -/
def Obligations.DecodeMessageDeliversTheDatagram : Prop :=
  ∀ s : State,
    (s.rxLen = 0#16 →
      exec .decodeMessage s = .next { s with res := 0#32, result := ⟨.nodata, false, false, false, false⟩ })
    ∧ (s.rxLen ≠ 0#16 → s.payIn.length = s.params.msgCap + 1 →
      ∃ (gs : List (List Nat)) (fs : List Frame) (n : Nat),
        gs.flatten = (s.rxBuf.take s.rxLen.toNat).map (fun d => ticksToBitLength d.toNat)
        ∧ (∀ g ∈ gs, g ≠ [] ∧ g.dropLast.sum < 11) ∧ (∀ g ∈ gs.dropLast, 11 ≤ g.sum)
        ∧ fs = gs.map frameFromRuns ∧ n = min fs.length s.params.msgCap
        ∧ exec .decodeMessage s = .next
            { s with
              payIn := (fs.take n).map (fun f => (f.extractLsb' 1 9).setWidth 16)
                ++ 0xFFFF#16 :: s.payIn.drop (n + 1)
              res := BitVec.ofNat 32 n
              rxLen := 0#16
              rxTrunc := false
              result :=
                ⟨.ok, false,
                  fs.any (fun f => f.getLsbD 0 || !f.getLsbD 10) || decide (s.params.msgCap < fs.length),
                  s.rxTrunc, decide (s.params.msgCap < fs.length)⟩ })

/-- R103, R111, R202: every command completes, and changes only what the "writes" column of R103 lists for it. -/
def Obligations.EveryCommandCompletesWithinItsFrame : Prop :=
  ∀ (i : Instr) (s : State), ∃ t : State, exec i s = .next t
    ∧ t.params = s.params ∧ t.time = s.time ∧ t.busOut = s.busOut ∧ t.arg = s.arg ∧ t.payOut = s.payOut
    ∧ t.txCur = s.txCur ∧ t.txNext = s.txNext ∧ t.txCmp = s.txCmp ∧ t.txWait = s.txWait
    ∧ t.rxBuf = s.rxBuf ∧ t.rxCur = s.rxCur ∧ t.rxCapt = s.rxCapt ∧ t.rxPrev = s.rxPrev
    ∧ t.rxElapsed = s.rxElapsed ∧ t.readData = s.readData ∧ t.inputs = s.inputs ∧ t.draws = s.draws
    ∧ (i ≠ .runsFromFrame → t.runv = s.runv ∧ t.runc = s.runc)
    ∧ (i ≠ .encodeMessage → t.txBuf = s.txBuf ∧ t.txLen = s.txLen)
    ∧ (i ≠ .decodeMessage → t.payIn = s.payIn ∧ t.rxLen = s.rxLen ∧ t.rxTrunc = s.rxTrunc)
    ∧ ((i = .nop ∨ i = .reserved9 ∨ (∃ op, i = .reservedAB op) ∨ ∃ op, i = .reservedCF op) → t.res = s.res)

/-- R104, R201: which command produces which completion code and which status field. -/
def Obligations.CompletionCodesBelongToTheirCommands : Prop :=
  ∀ (i : Instr) (s t : State), exec i s = .next t →
    ((t.result.code = .busy ∨ t.result.code = .malformed ∨ t.result.code = .tooLong) → i = .encodeMessage)
    ∧ (t.result.code = .nodata → i = .decodeMessage)
    ∧ (t.result.code = .illegalOp ↔ i = .reserved9 ∨ (∃ op, i = .reservedAB op) ∨ ∃ op, i = .reservedCF op)
    ∧ (t.result.valid = true → i = .payloadFromFrame)
    ∧ ((t.result.corrupt = true ∨ t.result.trunc = true ∨ t.result.ovf = true) → i = .decodeMessage)

/-! ### Laws of the transcoder and the codec, through the commands -/

/-- R120 law 2: FRAME_FROM_RUNS after RUNS_FROM_FRAME gives the frame back exactly when its bit 0 is 0. -/
def Obligations.RunsAndFramesInvertWhenStartBitIsZero : Prop :=
  ∀ s : State, s.runv.length = 16 →
    ∃ t u : State, exec .runsFromFrame s = .next t ∧ exec .frameFromRuns t = .next u
      ∧ (u.res = s.arg &&& 0x7FF#32 ↔ s.arg.getLsbD 0 = false)

/-- R125: a 9-bit payload framed and unframed comes back, valid. -/
def Obligations.PayloadComesBackFromItsFrame : Prop :=
  ∀ s : State, s.arg.toNat ≤ 0x1FF →
    ∃ t u : State, exec .frameFromPayload s = .next t
      ∧ exec .payloadFromFrame { t with arg := t.res } = .next u ∧ u.res = s.arg ∧ u.result.valid = true

/-- R126: an 11-bit frame is valid exactly when framing its payload gives it back, and exactly when it is one of the
512 values `0x400 | (p << 1)`. -/
def Obligations.ValidFramesAreTheFramedPayloads : Prop :=
  ∀ s : State, s.arg.toNat < 2 ^ 11 →
    ∃ t u : State, exec .payloadFromFrame s = .next t
      ∧ exec .frameFromPayload { t with arg := t.res } = .next u
      ∧ (t.result.valid = true ↔ u.res = s.arg)
      ∧ (t.result.valid = true ↔ ∃ p : Nat, p < 512 ∧ s.arg.toNat = 0x400 + 2 * p)

/-- R127: a valid frame has an even number of runs, from 2 to 10. -/
def Obligations.ValidFrameHasEvenRuns : Prop :=
  ∀ s : State, s.arg.getLsbD 0 = false → s.arg.getLsbD 10 = true →
    ∃ t : State, exec .runsFromFrame s = .next t
      ∧ t.runc.toNat % 2 = 0 ∧ 2 ≤ t.runc.toNat ∧ t.runc.toNat ≤ 10

/-- R137: runs within −104 … +103 µs of their true length decode as if they were exact. -/
def Obligations.JitterWithinHalfABitDecodesAlike : Prop :=
  ∀ (s : State) (cs : List Nat), s.rxLen ≠ 0#16 → cs.length = s.rxLen.toNat → cs.length ≤ s.rxBuf.length →
    (∀ j < cs.length, cs.getD j 0 < 315 ∧ 208 * cs.getD j 0 ≤ (readEntry s.rxBuf j).toNat + 104
      ∧ (readEntry s.rxBuf j).toNat ≤ 208 * cs.getD j 0 + 103) →
    ∃ t u : State, exec .decodeMessage s = .next t
      ∧ exec .decodeMessage { s with rxBuf := cs.map (fun c => BitVec.ofNat 16 (208 * c)) } = .next u
      ∧ t.payIn = u.payIn ∧ t.res = u.res ∧ t.result = u.result

/-! ### Messages -/

/-- R133: a message ENCODE_MESSAGE accepts comes back from DECODE_MESSAGE, uncorrupted, also with the last duration
replaced by the cap, the form the Receive Capture Engine stores. -/
def Obligations.EncodedMessageDecodesBack : Prop :=
  ∀ (s : State) (ps rest : List Entry), Safe s → s.txLen = 0#16 → s.payOut = ps ++ 0xFFFF#16 :: rest →
    ValidMessage s.params.msgCap ps → (frameDurations (messageFrames ps)).length ≤ s.params.runbufCap →
    ∃ t : State, exec .encodeMessage s = .next t ∧ t.result.code = .ok
      ∧ ∀ u : State, Safe u → u.params = s.params → u.rxLen = t.txLen →
          (∀ j < t.txLen.toNat, readEntry u.rxBuf j = readEntry t.txBuf j
            ∨ (j + 1 = t.txLen.toNat ∧ readEntry u.rxBuf j = 2291#16)) →
          ∃ v : State, exec .decodeMessage u = .next v ∧ v.payIn.take (ps.length + 1) = ps ++ [0xFFFF#16]
            ∧ v.res = BitVec.ofNat 32 ps.length ∧ v.result.code = .ok ∧ v.result.corrupt = false
            ∧ v.result.ovf = false

/-- R134: a flipped start bit or a cleared stop bit of one frame, made before its runs are formed, is reported; a flip
on the line need not be (vector M9, conflict C6). -/
def Obligations.DamagedFrameIsReported : Prop :=
  (∀ (u : State) (fs : List Frame) (k : Nat) (ds : List Entry), Safe u →
    (∀ f ∈ fs, f.getLsbD 0 = false ∧ f.getLsbD 10 = true) → k < fs.length →
    (ds = frameDurations (fs.set k (fs.getD k 0#11 ||| 0x001#11))
      ∨ ds = frameDurations (fs.set k (fs.getD k 0#11 &&& 0x3FF#11))) →
    u.rxLen.toNat = ds.length →
    (∀ j < ds.length, readEntry u.rxBuf j = readEntry ds j
      ∨ (j + 1 = ds.length ∧ readEntry u.rxBuf j = 2291#16)) →
    ∃ v : State, exec .decodeMessage u = .next v ∧ v.result.corrupt = true)
  ∧ ∀ u : State, Safe u → u.rxLen = 8#16 → 2 ≤ u.params.msgCap →
      u.rxBuf.take 8 = [208#16, 208#16, 624#16, 1456#16, 208#16, 208#16, 1456#16, 2291#16] →
      ∃ v : State, exec .decodeMessage u = .next v ∧ v.result.corrupt = false
        ∧ v.payIn.take 3 = [0x1F1#16, 0x101#16, 0xFFFF#16]

/-- R132, R86: the runs ENCODE_MESSAGE writes, driven at levels `j mod 2`, put the frames' own bits on the wire, back to
back. -/
def Obligations.WireCarriesTheFramesBits : Prop :=
  ∀ (s : State) (ps rest : List Entry), Safe s → s.txLen = 0#16 → s.payOut = ps ++ 0xFFFF#16 :: rest →
    ValidMessage s.params.msgCap ps → (frameDurations (messageFrames ps)).length ≤ s.params.runbufCap →
    ∃ t : State, exec .encodeMessage s = .next t ∧ t.txLen.toNat % 2 = 0
      ∧ wireBits (t.txBuf.take t.txLen.toNat) = (messageFrames ps).flatMap frameBits

/-! ### Encodings -/

/-- R101, R102, R103: OP alone decides the command, every word is a command, and encoding and decoding agree. -/
def Obligations.CommandWordsDecodeByOpAlone : Prop :=
  (∀ w : Word, (decode w).wellFormed = true)
    ∧ ∀ i : Instr, i.wellFormed = true →
        decode (encode i) = i ∧ (∀ w : Word, decode w = i ↔ w.toNat % 16 = (encodeOp i).toNat)

/-- R61, R65, R69, R204: the offsets the map admits are exactly those of the implemented registers, each its own. -/
def Obligations.RegisterOffsetsDecodeBack : Prop :=
  ∀ p : Config.Params, p.wellFormed = true →
    (∀ r : HostReg, implemented p r = true → decodeAccess p 4 (encodeOffset r) = .ok r)
    ∧ ∀ (size : Nat) (addr : Offset) (r : HostReg), decodeAccess p size addr = .ok r →
        size = 4 ∧ implemented p r = true ∧ encodeOffset r = addr

/-- R103, R101: a few CMD words written out from the opcode map, ignored bits set and clear. -/
def Obligations.SampleCommandWordsDecode : Prop :=
  decode 0x00000000#32 = .nop ∧ decode 0x00000001#32 = .runsFromFrame ∧ decode 0x00000012#32 = .frameFromRuns
    ∧ decode 0x00000006#32 = .payloadFromFrame ∧ decode 0x00000007#32 = .encodeMessage
    ∧ decode 0xABCDEF08#32 = .decodeMessage ∧ decode 0xFFFFFFF9#32 = .reserved9
    ∧ decode 0x0000000B#32 = .reservedAB 0xB#4 ∧ decode 0x0000000F#32 = .reservedCF 0xF#4

/-- R16, R66, R101: a step whose next action is the host's write of `w` to CMD runs the command `w` decodes to, on the
state with that action taken, and does nothing else. -/
def Obligations.StepRunsTheDecodedCommand : Prop :=
  (∀ (s : State) (w : Word) (rest : List Input), s.inputs = .hostWrite 4 0x000#12 w :: rest →
      step s = exec (decode w) { s with inputs := rest })
    ∧ ∀ (s : State) (w : Nat), w < 2 ^ 32 →
        step (s.withFetchWord 32 w) = exec (decode (BitVec.ofNat 32 w)) s

/-! ### Host bus -/

/-- R63, R67: a host read returns the register on the port and changes nothing of the block, whatever it answers. -/
def Obligations.HostReadHasNoSideEffect : Prop :=
  ∀ (s : State) (size : Nat) (addr : Offset),
    (∀ r, decodeAccess s.params size addr = .ok r →
      act (.hostRead size addr) s = .next { s with readData := readReg s r })
    ∧ afterAct (.hostRead size addr) s = { s with readData := (afterAct (.hostRead size addr) s).readData }

/-- R61, R63: the data of a read at each offset of the register map is the element the map puts there, zero-extended;
CMD reads 0. The words of RESULT and STATUS are those of `ResultWordHasItsLayout` and `StatusReadsTheEngines`. -/
def Obligations.HostReadReturnsTheElement : Prop :=
  ∀ s : State, s.params.wellFormed = true →
    act (.hostRead 4 0x000#12) s = .next { s with readData := 0#32 }
    ∧ act (.hostRead 4 0x004#12) s = act (rd .result) s
    ∧ act (.hostRead 4 0x008#12) s = .next { s with readData := s.arg }
    ∧ act (.hostRead 4 0x00C#12) s = .next { s with readData := s.res }
    ∧ act (.hostRead 4 0x010#12) s = .next { s with readData := s.runc.setWidth 32 }
    ∧ act (.hostRead 4 0x014#12) s = act (rd .status) s
    ∧ act (.hostRead 4 0x018#12) s = .next { s with readData := s.txLen.setWidth 32 }
    ∧ act (.hostRead 4 0x01C#12) s = .next { s with readData := s.rxLen.setWidth 32 }
    ∧ act (.hostRead 4 0x020#12) s = .next { s with readData := s.time }
    ∧ act (.hostRead 4 0x024#12) s = .next { s with readData := s.txCur.setWidth 32 }
    ∧ act (.hostRead 4 0x028#12) s = .next { s with readData := s.rxCur.setWidth 32 }
    ∧ act (.hostRead 4 0x02C#12) s = .next { s with readData := s.txNext }
    ∧ act (.hostRead 4 0x030#12) s = .next { s with readData := s.txCmp }
    ∧ act (.hostRead 4 0x034#12) s = .next { s with readData := s.rxElapsed.setWidth 32 }
    ∧ ∀ (k : Nat) (e : Entry),
        (k < 16 → s.runv[k]? = some e →
          act (.hostRead 4 (BitVec.ofNat 12 (0x040 + 4 * k))) s = .next { s with readData := e.setWidth 32 })
        ∧ (k ≤ s.params.msgCap → s.payOut[k]? = some e →
          act (.hostRead 4 (BitVec.ofNat 12 (0x080 + 4 * k))) s = .next { s with readData := e.setWidth 32 })
        ∧ (k < s.params.runbufCap → s.txBuf[k]? = some e →
          act (.hostRead 4 (BitVec.ofNat 12 (0x100 + 4 * k))) s = .next { s with readData := e.setWidth 32 })
        ∧ (k < s.params.runbufCap → s.rxBuf[k]? = some e →
          act (.hostRead 4 (BitVec.ofNat 12 (0x200 + 4 * k))) s = .next { s with readData := e.setWidth 32 })
        ∧ (k ≤ s.params.msgCap → s.payIn[k]? = some e →
          act (.hostRead 4 (BitVec.ofNat 12 (0x300 + 4 * k))) s = .next { s with readData := e.setWidth 32 })

/-- R204, R65: AccessError comes exactly for a size other than 4 bytes, a misaligned or reserved offset, or an array
entry beyond the implemented range; it carries offset and direction, changes no state element, and a read returns 0. -/
def Obligations.AccessErrorExactlyWhenTheMapDoesNotAdmit : Prop :=
  ∀ (s : State) (size : Nat) (addr : Offset) (v : Word),
    (NotAdmitted s.params size addr →
      act (.hostRead size addr) s = .fault (.accessError addr .read)
        ∧ act (.hostWrite size addr v) s = .fault (.accessError addr .write)
        ∧ afterAct (.hostRead size addr) s = { s with readData := 0#32 }
        ∧ afterAct (.hostWrite size addr v) s = s)
    ∧ (¬ NotAdmitted s.params size addr →
      (∃ t, act (.hostRead size addr) s = .next t) ∧ ∃ t, act (.hostWrite size addr v) s = .next t)

/-- R64, R31 to R34, R71: a write to an operand register stores that register's bits of the value, reads back, and
leaves every other register's value. -/
def Obligations.OperandRegistersReadBackWhatWasWritten : Prop :=
  ∀ (s : State) (r : HostReg) (v : Word), Safe s → implemented s.params r = true →
    (r = .arg ∨ r = .runc ∨ (∃ k, r = .runv k) ∨ ∃ k, r = .payOut k) →
    ∃ t : State, act (wr r v) s = .next t
      ∧ (r = .arg → readReg t r = v)
      ∧ (r = .runc → (readReg t r).toNat = min v.toNat 16)
      ∧ (((∃ k, r = .runv k) ∨ ∃ k, r = .payOut k) → readReg t r = v &&& 0xFFFF#32)
      ∧ ∀ r', implemented s.params r' = true → r' ≠ r → readReg t r' = readReg s r'

/-- R64, U12: a write to a read-only register or array entry is ignored, with no error. -/
def Obligations.WritesToReadOnlyRegistersAreIgnored : Prop :=
  ∀ (s : State) (r : HostReg) (v : Word), s.params.wellFormed = true → implemented s.params r = true →
    r ≠ .cmd → r ≠ .arg → r ≠ .runc → (∀ k, r ≠ .runv k) → (∀ k, r ≠ .payOut k) →
    act (wr r v) s = .next s

/-- R62, R107: the bits of STATUS, and what IS_SEND_BUFFER_FREE and HAS_RECEIVED_DATA answer from it. -/
def Obligations.StatusReadsTheEngines : Prop :=
  ∀ s : State, ∃ w : Word, act (rd .status) s = .next { s with readData := w }
    ∧ (w.getLsbD 0 = true ↔ s.txLen ≠ 0#16) ∧ (w.getLsbD 1 = true ↔ s.rxLen ≠ 0#16)
    ∧ w.getLsbD 2 = s.rxCapt ∧ w.getLsbD 3 = s.txWait ∧ w.getLsbD 4 = s.busOut ∧ w.getLsbD 5 = s.rxPrev
    ∧ w.getLsbD 6 = s.rxTrunc ∧ (∀ i, 7 ≤ i → w.getLsbD i = false)
    ∧ (isSendBufferFree w = true ↔ s.txLen = 0#16) ∧ (hasReceivedData w = true ↔ s.rxLen ≠ 0#16)

/-- R104, R107: the bits of RESULT; CODE values 6 and 7 are never produced; what TRY_SEND and TRY_RECEIVE answer from
it. -/
def Obligations.ResultWordHasItsLayout : Prop :=
  ∀ s : State, ∃ w : Word, act (rd .result) s = .next { s with readData := w }
    ∧ w.toNat % 8 ≤ 5
    ∧ (w.toNat % 8 = 0 ↔ s.result.code = .ok) ∧ (w.toNat % 8 = 1 ↔ s.result.code = .busy)
    ∧ (w.toNat % 8 = 2 ↔ s.result.code = .malformed) ∧ (w.toNat % 8 = 3 ↔ s.result.code = .tooLong)
    ∧ (w.toNat % 8 = 4 ↔ s.result.code = .nodata) ∧ (w.toNat % 8 = 5 ↔ s.result.code = .illegalOp)
    ∧ w.getLsbD 3 = s.result.valid ∧ w.getLsbD 4 = s.result.corrupt ∧ w.getLsbD 5 = s.result.trunc
    ∧ w.getLsbD 6 = s.result.ovf ∧ (∀ i, 7 ≤ i → w.getLsbD i = false)
    ∧ (accepted w = true ↔ s.result.code = .ok) ∧ (received w = true ↔ s.result.code ≠ .nodata)
    ∧ corrupted w = s.result.corrupt

/-- R107, R131: TRY_SEND of at most MSG_CAP payloads answers `accepted = true` exactly when the buffer is free and the
sequence, which a payload 0xFFFF would end, is well formed and fits; then TX_BUF holds its runs. Otherwise (busy or
refused) TX_BUF and TX_LEN are as before. -/
def Obligations.TrySendAnswersWhetherTheMessageWasTaken : Prop :=
  ∀ (s : State) (ps qs : List Entry), Safe s → ps.length ≤ s.params.msgCap →
    qs = ps.takeWhile (fun p => p != 0xFFFF#16) →
    (s.txLen = 0#16 → ValidMessage s.params.msgCap qs →
        (frameDurations (messageFrames qs)).length ≤ s.params.runbufCap →
      accepted (afterActs (trySend ps) s).readData = true
        ∧ (afterActs (trySend ps) s).txLen.toNat = (frameDurations (messageFrames qs)).length
        ∧ (afterActs (trySend ps) s).txBuf.take (frameDurations (messageFrames qs)).length
            = frameDurations (messageFrames qs))
    ∧ ((s.txLen ≠ 0#16 ∨ ¬ ValidMessage s.params.msgCap qs
          ∨ s.params.runbufCap < (frameDurations (messageFrames qs)).length) →
      accepted (afterActs (trySend ps) s).readData = false
        ∧ (afterActs (trySend ps) s).txLen = s.txLen ∧ (afterActs (trySend ps) s).txBuf = s.txBuf)

/-- R69: a register's bus address lies in the window and names its offset. -/
def Obligations.WindowHoldsEveryRegister : Prop :=
  ∀ r : HostReg, windowOffset (busAddress r) = some (encodeOffset r)

/-! ### TICK and the Transmit Scheduler -/

/-- R141, R23: a TICK always completes, advances TIME by one modulo 2^32, and touches no command register. -/
def Obligations.TickAdvancesTimeAndSparesTheCommandUnit : Prop :=
  ∀ (b : Level) (s : State), ∃ t : State, act (.tick b) s = .next t
    ∧ t.time.toNat = (s.time.toNat + 1) % 2 ^ 32
    ∧ t.params = s.params ∧ t.arg = s.arg ∧ t.runc = s.runc ∧ t.runv = s.runv ∧ t.payOut = s.payOut
    ∧ t.payIn = s.payIn ∧ t.res = s.res ∧ t.result = s.result ∧ t.txBuf = s.txBuf
    ∧ t.readData = s.readData ∧ t.inputs = s.inputs ∧ t.draws = s.draws

/-- R141, R206, R207: the engines touch disjoint state: neither sees the other, and their order within a tick cannot be
observed. -/
def Obligations.EnginesDoNotInterfere : Prop :=
  (∀ (b c : Level) (s u : State), txView s = txView u → s.time = u.time → s.txBuf = u.txBuf →
      s.params = u.params → txView (tick b s) = txView (tick c u))
    ∧ (∀ (b : Level) (s u : State), rxView s = rxView u → s.params = u.params →
        rxView (tick b s) = rxView (tick b u))
    ∧ ∀ (b : Level) (s : State), txStep (rxStep b s) = rxStep b (txStep s)

/-- R142, R144: without a firing nothing moves; while waiting before TX_NEXT nothing moves, TX_CMP included; a firing
with a run in progress that comes before TX_NEXT starts a wait. -/
def Obligations.EarlyFiringWaitsForTheRunEnd : Prop :=
  ∀ (b : Level) (s : State),
    (s.txWait = false → s.time + 1#32 ≠ s.txCmp → txView (tick b s) = txView s)
    ∧ (s.txWait = true → (s.time + 1#32 - s.txNext).toInt < 0 → txView (tick b s) = txView s)
    ∧ (s.txWait = false → s.time + 1#32 = s.txCmp → s.txLen ≠ 0#16 → s.txCur ≠ 0#16 →
        (s.time + 1#32 - s.txNext).toInt < 0 → txView (tick b s) = { txView s with txWait := true })

/-- R146: a firing with nothing to send drives the idle level and re-arms one full message period ahead. Where the
invariants hold the level was the idle one already, so there is no edge on the wire. -/
def Obligations.IdleFiringIsAHeartbeat : Prop :=
  ∀ (b : Level) (s : State), s.txWait = false → s.time + 1#32 = s.txCmp → s.txLen = 0#16 →
    txView (tick b s) = { txView s with busOut := true, txCmp := s.time + 1#32 + 2291#32 }
      ∧ (Safe s → IdleLevel s → (tick b s).busOut = s.busOut)

/-- R145, R143, R148: a firing that finds a message and a cursor of 0 starts run 0 at once, at this instant. -/
def Obligations.FiringStartsTheDrain : Prop :=
  ∀ (b : Level) (s : State), s.txWait = false → s.time + 1#32 = s.txCmp → s.txLen ≠ 0#16 → s.txCur = 0#16 →
    txView (tick b s) =
      { txView s with
        busOut := false
        txCur := 1#16
        txNext := s.time + 1#32 + BitVec.ofNat 32 (readEntry s.txBuf 0).toNat
        txCmp := s.time + 1#32 + BitVec.ofNat 32 (max ((readEntry s.txBuf 0).toNat - s.params.marginUs) 1) }

/-- R143, R144, R148: at the end of a run, reached by a firing or by the end of its wait, the next run starts: its level
is the parity of its index, TX_NEXT moves on by its duration, and the compare comes MARGIN_US early, at least a tick. -/
def Obligations.RunEndStartsTheNextRun : Prop :=
  ∀ (b : Level) (s : State) (i : Nat), s.txCur.toNat = i → 0 < i → i < s.txLen.toNat →
    (s.txWait = true ∨ s.time + 1#32 = s.txCmp) → 0 ≤ (s.time + 1#32 - s.txNext).toInt →
    txView (tick b s) =
      { txView s with
        busOut := (i % 2 == 1)
        txCur := BitVec.ofNat 16 (i + 1)
        txNext := s.txNext + BitVec.ofNat 32 (readEntry s.txBuf i).toNat
        txCmp := s.time + 1#32 + BitVec.ofNat 32 (max ((readEntry s.txBuf i).toNat - s.params.marginUs) 1)
        txWait := false }

/-- R147: at the end of the last run the buffer is handed back and the Scheduler goes idle in the same tick. -/
def Obligations.LastRunEndCompletesTheDrain : Prop :=
  ∀ (b : Level) (s : State), s.txLen ≠ 0#16 → s.txCur = s.txLen →
    (s.txWait = true ∨ s.time + 1#32 = s.txCmp) → 0 ≤ (s.time + 1#32 - s.txNext).toInt →
    txView (tick b s) =
      { txView s with
        busOut := true, txLen := 0#16, txCur := 0#16, txCmp := s.time + 1#32 + 2291#32, txWait := false }

/-- R144: a run of `d ≥ 1` ticks just started waits exactly from the tick `max(d − MARGIN_US, 1)` after its start until
its end, `min(MARGIN_US, d − 1)` ticks, and until then neither the level nor the cursor moves. -/
def Obligations.WaitLastsTheMargin : Prop :=
  ∀ (s : State) (d : Nat) (bs : List Level), s.txWait = false → s.txLen ≠ 0#16 → s.txCur ≠ 0#16 →
    d < 2 ^ 16 → s.txNext = s.time + BitVec.ofNat 32 d →
    s.txCmp = s.time + BitVec.ofNat 32 (max (d - s.params.marginUs) 1) → bs.length < d →
    ((ticks bs s).txWait = true ↔ max (d - s.params.marginUs) 1 ≤ bs.length)
      ∧ (ticks bs s).busOut = s.busOut ∧ (ticks bs s).txCur = s.txCur ∧ (ticks bs s).txLen = s.txLen

/-- R149: from a drain start, BUS_OUT takes level `k mod 2` from `Σ_{j<k} dj` ticks on, for every run `k`, and is 1 with
TX_LEN = 0 from `Σ dj` on, whatever MARGIN_US is. -/
def Obligations.OutputFollowsTheRunTimeline : Prop :=
  ∀ (s : State) (bs : List Level), s.txWait = false → s.time + 1#32 = s.txCmp → s.txLen ≠ 0#16 →
    s.txCur = 0#16 → (∀ j < s.txLen.toNat, 1 ≤ runTicks s j) →
    (∀ k < s.txLen.toNat, runStart s k < bs.length → bs.length ≤ runStart s (k + 1) →
        (ticks bs s).busOut = (k % 2 == 1) ∧ (ticks bs s).txLen = s.txLen
          ∧ (ticks bs s).txCur.toNat = k + 1)
    ∧ (runStart s s.txLen.toNat < bs.length → (ticks bs s).busOut = true ∧ (ticks bs s).txLen = 0#16)

/-- R247, R149, U4: from a state in which no run has started, MARGIN_US changes neither the output nor when the buffer
is handed back. -/
def Obligations.MarginDoesNotChangeTheWire : Prop :=
  ∀ (s : State) (m n : Nat) (bs : List Level), s.txWait = false → s.txCur = 0#16 →
    (∀ j < s.txLen.toNat, 1 ≤ runTicks s j) →
    (ticks bs { s with params := { s.params with marginUs := m } }).busOut
        = (ticks bs { s with params := { s.params with marginUs := n } }).busOut
      ∧ (ticks bs { s with params := { s.params with marginUs := m } }).txLen
        = (ticks bs { s with params := { s.params with marginUs := n } }).txLen

/-- R75, R150: an accepted message that has not started is drained within one message period and the sum of its
durations. -/
def Obligations.AcceptedMessageDrainsInTime : Prop :=
  ∀ (s : State) (bs : List Level), Safe s → TxTimed s → s.txLen ≠ 0#16 → s.txCur = 0#16 →
    bs.length = 2291 + runStart s s.txLen.toNat → (ticks bs s).txLen = 0#16 ∧ (ticks bs s).busOut = true

/-! ### The Receive Capture Engine -/

/-- R161: a sample equal to the last one is no edge: only RX_ELAPSED moves, saturating at the cap. -/
def Obligations.NoEdgeOnlyCountsTime : Prop :=
  ∀ s : State,
    rxView (tick s.rxPrev s)
      = { rxView s with rxElapsed := BitVec.ofNat 12 (min (s.rxElapsed.toNat + 1) 2291) }

/-- R163: a boundary edge while capturing appends the cap, publishes the cursor after the append, and stops capturing
without beginning again. -/
def Obligations.BoundaryEdgePublishesTheDatagram : Prop :=
  ∀ s : State, 2291 ≤ s.rxElapsed.toNat + 1 → s.rxCapt = true →
    rxView (tick (!s.rxPrev) s) =
      { rxView s with
        rxPrev := !s.rxPrev
        rxElapsed := 0#12
        rxBuf := s.rxBuf.set s.rxCur.toNat 2291#16
        rxLen := s.rxCur + 1#16
        rxCapt := false
        rxCur := 0#16 }

/-- R164: a boundary edge while not capturing begins a capture when RX_LEN = 0, storing nothing, and drops otherwise. -/
def Obligations.BoundaryEdgeBeginsOrDrops : Prop :=
  ∀ s : State, 2291 ≤ s.rxElapsed.toNat + 1 → s.rxCapt = false →
    (s.rxLen = 0#16 → rxView (tick (!s.rxPrev) s) =
      { rxView s with rxPrev := !s.rxPrev, rxElapsed := 0#12, rxCapt := true, rxCur := 0#16 })
    ∧ (s.rxLen ≠ 0#16 → rxView (tick (!s.rxPrev) s) =
      { rxView s with rxPrev := !s.rxPrev, rxElapsed := 0#12 })

/-- R165: an intra-datagram edge while capturing, with room left, stores the elapsed time at the cursor. -/
def Obligations.IntraEdgeStoresTheRun : Prop :=
  ∀ s : State, s.rxElapsed.toNat + 1 < 2291 → s.rxCapt = true → s.rxCur.toNat < s.params.runbufCap - 1 →
    rxView (tick (!s.rxPrev) s) =
      { rxView s with
        rxPrev := !s.rxPrev
        rxElapsed := 0#12
        rxBuf := s.rxBuf.set s.rxCur.toNat (BitVec.ofNat 16 (s.rxElapsed.toNat + 1))
        rxCur := s.rxCur + 1#16 }

/-- R166: an intra-datagram edge at capacity discards the run, appends the cap in the last slot, publishes RUNBUF_CAP
entries, and records the truncation. -/
def Obligations.EdgeAtCapacityTruncatesTheDatagram : Prop :=
  ∀ s : State, s.rxElapsed.toNat + 1 < 2291 → s.rxCapt = true → s.rxCur.toNat = s.params.runbufCap - 1 →
    rxView (tick (!s.rxPrev) s) =
      { rxView s with
        rxPrev := !s.rxPrev
        rxElapsed := 0#12
        rxBuf := s.rxBuf.set (s.params.runbufCap - 1) 2291#16
        rxLen := BitVec.ofNat 16 s.params.runbufCap
        rxCapt := false
        rxCur := 0#16
        rxTrunc := true }

/-- R167: an intra-datagram edge while not capturing changes RX_PREV and RX_ELAPSED alone. -/
def Obligations.IntraEdgeWhileNotCapturingIsIgnored : Prop :=
  ∀ s : State, s.rxElapsed.toNat + 1 < 2291 → s.rxCapt = false →
    rxView (tick (!s.rxPrev) s) = { rxView s with rxPrev := !s.rxPrev, rxElapsed := 0#12 }

/-- R162, R171: an edge `n ≥ 1` ticks after the last one is measured as `min(n, 2291)`, so every gap of 2291 ticks or
more has the same effect. -/
def Obligations.EdgeIntervalIsMeasuredAndClamped : Prop :=
  ∀ (s : State) (n : Nat), s.rxElapsed = 0#12 → 1 ≤ n →
    rxView (ticks (List.replicate (n - 1) s.rxPrev ++ [!s.rxPrev]) s)
        = rxView (tick (!s.rxPrev) { s with rxElapsed := BitVec.ofNat 12 (min n 2291 - 1) })
      ∧ (2291 ≤ n →
          rxView (ticks (List.replicate (n - 1) s.rxPrev ++ [!s.rxPrev]) s)
            = rxView (ticks (List.replicate 2290 s.rxPrev ++ [!s.rxPrev]) s))

/-! ### Reset and invariants -/

/-- R60, R231, R232: the reset values the spec gives, after power-on and after the reset input from any state; a
reset abandons a drain and a capture. What the arrays hold is not stated. -/
def Obligations.ResetLeavesTheSpecifiedValues : Prop :=
  ∀ s t : State, (t = State.reset ∨ act .reset s = .next t) →
    t.time = 0#32 ∧ t.busOut = true ∧ t.txLen = 0#16 ∧ t.txCur = 0#16 ∧ t.txNext = 0#32 ∧ t.txCmp = 2291#32
      ∧ t.txWait = false ∧ t.res = 0#32 ∧ t.result = ⟨.ok, false, false, false, false⟩ ∧ t.rxLen = 0#16
      ∧ t.rxCur = 0#16 ∧ t.rxCapt = false ∧ t.rxPrev = true ∧ t.rxElapsed = 0#12 ∧ t.rxTrunc = false
      ∧ t.arg = 0#32 ∧ t.runc = 0#5 ∧ Sized t

/-- R58, R59, R8, R60: the state after power-on satisfies every invariant, for all admitted parameters. -/
def Obligations.ResetSatisfiesTheInvariants : Prop :=
  (Safe State.reset ∧ TxTimed State.reset ∧ RxContents State.reset ∧ IdleLevel State.reset)
    ∧ ∀ p : Config.Params, p.wellFormed = true →
        Safe (State.resetWith p) ∧ TxTimed (State.resetWith p) ∧ RxContents (State.resetWith p)
          ∧ IdleLevel (State.resetWith p)

/-- R58, R59, R202: every step keeps the engines' invariants, the arrays' sizes, the legal counts, and the
parameters. -/
def Obligations.EveryStepKeepsTheEnginesSafe : Prop :=
  ∀ s t : State, Safe s → step s = .next t → Safe t ∧ t.params = s.params

/-- R85, R142, R144, R148, R205, R246: every step keeps the outbound durations within 208 … 2080, the compare armed at
most one message period ahead, a firing MARGIN_US before the run's end, and a wait within MARGIN_US. -/
def Obligations.EveryStepKeepsTheSchedulerTimed : Prop :=
  ∀ s t : State, Safe s → TxTimed s → step s = .next t → TxTimed t

/-- R85, R87, R168: every step keeps RX_BUF's contents: measured runs of 1 … 2290 µs while capturing, and a published
datagram's terminating cap entry. -/
def Obligations.EveryStepKeepsTheCapturedRuns : Prop :=
  ∀ s t : State, Safe s → RxContents s → step s = .next t → RxContents t

/-- R86, R14, R146, R147: every step keeps the line at the idle level 1 while no run is being driven. -/
def Obligations.EveryStepKeepsTheIdleLevel : Prop :=
  ∀ s t : State, IdleLevel s → step s = .next t → IdleLevel t

/-- R72, R42, R147: while TX_LEN > 0 no action but reset changes TX_BUF, only a TICK at the end of the last run (the
cursor past it, TX_NEXT reached, a wait or a firing) clears TX_LEN, and only ENCODE_MESSAGE sets it. -/
def Obligations.OutboundHandshakeIsKept : Prop :=
  ∀ s t : State, Safe s → step s = .next t → (takeInput s).1 ≠ .reset →
    (s.txLen ≠ 0#16 → t.txBuf = s.txBuf
      ∧ (t.txLen = s.txLen
          ∨ (t.txLen = 0#16 ∧ s.txCur = s.txLen ∧ 0 ≤ (s.time + 1#32 - s.txNext).toInt
              ∧ (s.txWait = true ∨ s.time + 1#32 = s.txCmp) ∧ ∃ b, (takeInput s).1 = .tick b)))
    ∧ (s.txLen = 0#16 → t.txLen ≠ 0#16 →
        ∃ w, (takeInput s).1 = .hostWrite 4 0x000#12 w ∧ decode w = .encodeMessage)

/-- R73, R53: while RX_LEN > 0 no action but reset changes RX_BUF, only DECODE_MESSAGE clears RX_LEN, and only an edge
while capturing sets it. -/
def Obligations.InboundHandshakeIsKept : Prop :=
  ∀ s t : State, Safe s → step s = .next t → (takeInput s).1 ≠ .reset →
    (s.rxLen ≠ 0#16 → t.rxBuf = s.rxBuf
      ∧ (t.rxLen = s.rxLen
          ∨ (t.rxLen = 0#16 ∧ ∃ w, (takeInput s).1 = .hostWrite 4 0x000#12 w ∧ decode w = .decodeMessage)))
    ∧ (s.rxLen = 0#16 → t.rxLen ≠ 0#16 → s.rxCapt = true ∧ (takeInput s).1 = .tick (!s.rxPrev))
end

