-- ==== Sys2Proof/Laws/State.lean ====
section
/-! SUPPORT. One lemma per field of State per named update: what each update leaves in each field. -/

namespace Sys2Proof.Machine

section setResult
variable (r : Result) (s : State)

@[simp] theorem setResult_params : (setResult r s).params = s.params := rfl
@[simp] theorem setResult_time : (setResult r s).time = s.time := rfl
@[simp] theorem setResult_busOut : (setResult r s).busOut = s.busOut := rfl
@[simp] theorem setResult_arg : (setResult r s).arg = s.arg := rfl
@[simp] theorem setResult_runc : (setResult r s).runc = s.runc := rfl
@[simp] theorem setResult_runv : (setResult r s).runv = s.runv := rfl
@[simp] theorem setResult_payOut : (setResult r s).payOut = s.payOut := rfl
@[simp] theorem setResult_payIn : (setResult r s).payIn = s.payIn := rfl
@[simp] theorem setResult_res : (setResult r s).res = s.res := rfl
@[simp] theorem setResult_result : (setResult r s).result = r := rfl
@[simp] theorem setResult_txBuf : (setResult r s).txBuf = s.txBuf := rfl
@[simp] theorem setResult_txLen : (setResult r s).txLen = s.txLen := rfl
@[simp] theorem setResult_txCur : (setResult r s).txCur = s.txCur := rfl
@[simp] theorem setResult_txNext : (setResult r s).txNext = s.txNext := rfl
@[simp] theorem setResult_txCmp : (setResult r s).txCmp = s.txCmp := rfl
@[simp] theorem setResult_txWait : (setResult r s).txWait = s.txWait := rfl
@[simp] theorem setResult_rxBuf : (setResult r s).rxBuf = s.rxBuf := rfl
@[simp] theorem setResult_rxCur : (setResult r s).rxCur = s.rxCur := rfl
@[simp] theorem setResult_rxLen : (setResult r s).rxLen = s.rxLen := rfl
@[simp] theorem setResult_rxCapt : (setResult r s).rxCapt = s.rxCapt := rfl
@[simp] theorem setResult_rxPrev : (setResult r s).rxPrev = s.rxPrev := rfl
@[simp] theorem setResult_rxElapsed : (setResult r s).rxElapsed = s.rxElapsed := rfl
@[simp] theorem setResult_rxTrunc : (setResult r s).rxTrunc = s.rxTrunc := rfl
@[simp] theorem setResult_readData : (setResult r s).readData = s.readData := rfl
@[simp] theorem setResult_inputs : (setResult r s).inputs = s.inputs := rfl
@[simp] theorem setResult_draws : (setResult r s).draws = s.draws := rfl

end setResult

section setRes
variable (v : Word) (s : State)

@[simp] theorem setRes_params : (setRes v s).params = s.params := rfl
@[simp] theorem setRes_time : (setRes v s).time = s.time := rfl
@[simp] theorem setRes_busOut : (setRes v s).busOut = s.busOut := rfl
@[simp] theorem setRes_arg : (setRes v s).arg = s.arg := rfl
@[simp] theorem setRes_runc : (setRes v s).runc = s.runc := rfl
@[simp] theorem setRes_runv : (setRes v s).runv = s.runv := rfl
@[simp] theorem setRes_payOut : (setRes v s).payOut = s.payOut := rfl
@[simp] theorem setRes_payIn : (setRes v s).payIn = s.payIn := rfl
@[simp] theorem setRes_res : (setRes v s).res = v := rfl
@[simp] theorem setRes_result : (setRes v s).result = s.result := rfl
@[simp] theorem setRes_txBuf : (setRes v s).txBuf = s.txBuf := rfl
@[simp] theorem setRes_txLen : (setRes v s).txLen = s.txLen := rfl
@[simp] theorem setRes_txCur : (setRes v s).txCur = s.txCur := rfl
@[simp] theorem setRes_txNext : (setRes v s).txNext = s.txNext := rfl
@[simp] theorem setRes_txCmp : (setRes v s).txCmp = s.txCmp := rfl
@[simp] theorem setRes_txWait : (setRes v s).txWait = s.txWait := rfl
@[simp] theorem setRes_rxBuf : (setRes v s).rxBuf = s.rxBuf := rfl
@[simp] theorem setRes_rxCur : (setRes v s).rxCur = s.rxCur := rfl
@[simp] theorem setRes_rxLen : (setRes v s).rxLen = s.rxLen := rfl
@[simp] theorem setRes_rxCapt : (setRes v s).rxCapt = s.rxCapt := rfl
@[simp] theorem setRes_rxPrev : (setRes v s).rxPrev = s.rxPrev := rfl
@[simp] theorem setRes_rxElapsed : (setRes v s).rxElapsed = s.rxElapsed := rfl
@[simp] theorem setRes_rxTrunc : (setRes v s).rxTrunc = s.rxTrunc := rfl
@[simp] theorem setRes_readData : (setRes v s).readData = s.readData := rfl
@[simp] theorem setRes_inputs : (setRes v s).inputs = s.inputs := rfl
@[simp] theorem setRes_draws : (setRes v s).draws = s.draws := rfl

end setRes

section advanceTime
variable (s : State)

@[simp] theorem advanceTime_params : (advanceTime s).params = s.params := rfl
@[simp] theorem advanceTime_time : (advanceTime s).time = s.time + 1#32 := rfl
@[simp] theorem advanceTime_busOut : (advanceTime s).busOut = s.busOut := rfl
@[simp] theorem advanceTime_arg : (advanceTime s).arg = s.arg := rfl
@[simp] theorem advanceTime_runc : (advanceTime s).runc = s.runc := rfl
@[simp] theorem advanceTime_runv : (advanceTime s).runv = s.runv := rfl
@[simp] theorem advanceTime_payOut : (advanceTime s).payOut = s.payOut := rfl
@[simp] theorem advanceTime_payIn : (advanceTime s).payIn = s.payIn := rfl
@[simp] theorem advanceTime_res : (advanceTime s).res = s.res := rfl
@[simp] theorem advanceTime_result : (advanceTime s).result = s.result := rfl
@[simp] theorem advanceTime_txBuf : (advanceTime s).txBuf = s.txBuf := rfl
@[simp] theorem advanceTime_txLen : (advanceTime s).txLen = s.txLen := rfl
@[simp] theorem advanceTime_txCur : (advanceTime s).txCur = s.txCur := rfl
@[simp] theorem advanceTime_txNext : (advanceTime s).txNext = s.txNext := rfl
@[simp] theorem advanceTime_txCmp : (advanceTime s).txCmp = s.txCmp := rfl
@[simp] theorem advanceTime_txWait : (advanceTime s).txWait = s.txWait := rfl
@[simp] theorem advanceTime_rxBuf : (advanceTime s).rxBuf = s.rxBuf := rfl
@[simp] theorem advanceTime_rxCur : (advanceTime s).rxCur = s.rxCur := rfl
@[simp] theorem advanceTime_rxLen : (advanceTime s).rxLen = s.rxLen := rfl
@[simp] theorem advanceTime_rxCapt : (advanceTime s).rxCapt = s.rxCapt := rfl
@[simp] theorem advanceTime_rxPrev : (advanceTime s).rxPrev = s.rxPrev := rfl
@[simp] theorem advanceTime_rxElapsed : (advanceTime s).rxElapsed = s.rxElapsed := rfl
@[simp] theorem advanceTime_rxTrunc : (advanceTime s).rxTrunc = s.rxTrunc := rfl
@[simp] theorem advanceTime_readData : (advanceTime s).readData = s.readData := rfl
@[simp] theorem advanceTime_inputs : (advanceTime s).inputs = s.inputs := rfl
@[simp] theorem advanceTime_draws : (advanceTime s).draws = s.draws := rfl

end advanceTime

section heartbeat
variable (s : State)

@[simp] theorem heartbeat_params : (heartbeat s).params = s.params := rfl
@[simp] theorem heartbeat_time : (heartbeat s).time = s.time := rfl
@[simp] theorem heartbeat_busOut : (heartbeat s).busOut = true := rfl
@[simp] theorem heartbeat_arg : (heartbeat s).arg = s.arg := rfl
@[simp] theorem heartbeat_runc : (heartbeat s).runc = s.runc := rfl
@[simp] theorem heartbeat_runv : (heartbeat s).runv = s.runv := rfl
@[simp] theorem heartbeat_payOut : (heartbeat s).payOut = s.payOut := rfl
@[simp] theorem heartbeat_payIn : (heartbeat s).payIn = s.payIn := rfl
@[simp] theorem heartbeat_res : (heartbeat s).res = s.res := rfl
@[simp] theorem heartbeat_result : (heartbeat s).result = s.result := rfl
@[simp] theorem heartbeat_txBuf : (heartbeat s).txBuf = s.txBuf := rfl
@[simp] theorem heartbeat_txLen : (heartbeat s).txLen = s.txLen := rfl
@[simp] theorem heartbeat_txCur : (heartbeat s).txCur = s.txCur := rfl
@[simp] theorem heartbeat_txNext : (heartbeat s).txNext = s.txNext := rfl
@[simp] theorem heartbeat_txCmp : (heartbeat s).txCmp = addTicks s.time Config.msgPeriodUs := rfl
@[simp] theorem heartbeat_txWait : (heartbeat s).txWait = s.txWait := rfl
@[simp] theorem heartbeat_rxBuf : (heartbeat s).rxBuf = s.rxBuf := rfl
@[simp] theorem heartbeat_rxCur : (heartbeat s).rxCur = s.rxCur := rfl
@[simp] theorem heartbeat_rxLen : (heartbeat s).rxLen = s.rxLen := rfl
@[simp] theorem heartbeat_rxCapt : (heartbeat s).rxCapt = s.rxCapt := rfl
@[simp] theorem heartbeat_rxPrev : (heartbeat s).rxPrev = s.rxPrev := rfl
@[simp] theorem heartbeat_rxElapsed : (heartbeat s).rxElapsed = s.rxElapsed := rfl
@[simp] theorem heartbeat_rxTrunc : (heartbeat s).rxTrunc = s.rxTrunc := rfl
@[simp] theorem heartbeat_readData : (heartbeat s).readData = s.readData := rfl
@[simp] theorem heartbeat_inputs : (heartbeat s).inputs = s.inputs := rfl
@[simp] theorem heartbeat_draws : (heartbeat s).draws = s.draws := rfl

end heartbeat

section drainComplete
variable (s : State)

@[simp] theorem drainComplete_params : (drainComplete s).params = s.params := rfl
@[simp] theorem drainComplete_time : (drainComplete s).time = s.time := rfl
@[simp] theorem drainComplete_busOut : (drainComplete s).busOut = true := rfl
@[simp] theorem drainComplete_arg : (drainComplete s).arg = s.arg := rfl
@[simp] theorem drainComplete_runc : (drainComplete s).runc = s.runc := rfl
@[simp] theorem drainComplete_runv : (drainComplete s).runv = s.runv := rfl
@[simp] theorem drainComplete_payOut : (drainComplete s).payOut = s.payOut := rfl
@[simp] theorem drainComplete_payIn : (drainComplete s).payIn = s.payIn := rfl
@[simp] theorem drainComplete_res : (drainComplete s).res = s.res := rfl
@[simp] theorem drainComplete_result : (drainComplete s).result = s.result := rfl
@[simp] theorem drainComplete_txBuf : (drainComplete s).txBuf = s.txBuf := rfl
@[simp] theorem drainComplete_txLen : (drainComplete s).txLen = 0#16 := rfl
@[simp] theorem drainComplete_txCur : (drainComplete s).txCur = 0#16 := rfl
@[simp] theorem drainComplete_txNext : (drainComplete s).txNext = s.txNext := rfl
@[simp] theorem drainComplete_txCmp : (drainComplete s).txCmp = addTicks s.time Config.msgPeriodUs := rfl
@[simp] theorem drainComplete_txWait : (drainComplete s).txWait = s.txWait := rfl
@[simp] theorem drainComplete_rxBuf : (drainComplete s).rxBuf = s.rxBuf := rfl
@[simp] theorem drainComplete_rxCur : (drainComplete s).rxCur = s.rxCur := rfl
@[simp] theorem drainComplete_rxLen : (drainComplete s).rxLen = s.rxLen := rfl
@[simp] theorem drainComplete_rxCapt : (drainComplete s).rxCapt = s.rxCapt := rfl
@[simp] theorem drainComplete_rxPrev : (drainComplete s).rxPrev = s.rxPrev := rfl
@[simp] theorem drainComplete_rxElapsed : (drainComplete s).rxElapsed = s.rxElapsed := rfl
@[simp] theorem drainComplete_rxTrunc : (drainComplete s).rxTrunc = s.rxTrunc := rfl
@[simp] theorem drainComplete_readData : (drainComplete s).readData = s.readData := rfl
@[simp] theorem drainComplete_inputs : (drainComplete s).inputs = s.inputs := rfl
@[simp] theorem drainComplete_draws : (drainComplete s).draws = s.draws := rfl

end drainComplete

section startRun
variable (i : Nat) (s : State)

@[simp] theorem startRun_params : (startRun i s).params = s.params := rfl
@[simp] theorem startRun_time : (startRun i s).time = s.time := rfl
@[simp] theorem startRun_busOut : (startRun i s).busOut = runLevel i := rfl
@[simp] theorem startRun_arg : (startRun i s).arg = s.arg := rfl
@[simp] theorem startRun_runc : (startRun i s).runc = s.runc := rfl
@[simp] theorem startRun_runv : (startRun i s).runv = s.runv := rfl
@[simp] theorem startRun_payOut : (startRun i s).payOut = s.payOut := rfl
@[simp] theorem startRun_payIn : (startRun i s).payIn = s.payIn := rfl
@[simp] theorem startRun_res : (startRun i s).res = s.res := rfl
@[simp] theorem startRun_result : (startRun i s).result = s.result := rfl
@[simp] theorem startRun_txBuf : (startRun i s).txBuf = s.txBuf := rfl
@[simp] theorem startRun_txLen : (startRun i s).txLen = s.txLen := rfl
@[simp] theorem startRun_txCur : (startRun i s).txCur = BitVec.ofNat 16 (i + 1) := rfl
@[simp] theorem startRun_txNext : (startRun i s).txNext = addTicks s.txNext (readEntry s.txBuf i).toNat := rfl
@[simp] theorem startRun_txCmp : (startRun i s).txCmp = addTicks s.time (rearmTicks s.params.marginUs (readEntry s.txBuf i).toNat) := rfl
@[simp] theorem startRun_txWait : (startRun i s).txWait = s.txWait := rfl
@[simp] theorem startRun_rxBuf : (startRun i s).rxBuf = s.rxBuf := rfl
@[simp] theorem startRun_rxCur : (startRun i s).rxCur = s.rxCur := rfl
@[simp] theorem startRun_rxLen : (startRun i s).rxLen = s.rxLen := rfl
@[simp] theorem startRun_rxCapt : (startRun i s).rxCapt = s.rxCapt := rfl
@[simp] theorem startRun_rxPrev : (startRun i s).rxPrev = s.rxPrev := rfl
@[simp] theorem startRun_rxElapsed : (startRun i s).rxElapsed = s.rxElapsed := rfl
@[simp] theorem startRun_rxTrunc : (startRun i s).rxTrunc = s.rxTrunc := rfl
@[simp] theorem startRun_readData : (startRun i s).readData = s.readData := rfl
@[simp] theorem startRun_inputs : (startRun i s).inputs = s.inputs := rfl
@[simp] theorem startRun_draws : (startRun i s).draws = s.draws := rfl

end startRun

section rxFinalize
variable (s : State)

@[simp] theorem rxFinalize_params : (rxFinalize s).params = s.params := rfl
@[simp] theorem rxFinalize_time : (rxFinalize s).time = s.time := rfl
@[simp] theorem rxFinalize_busOut : (rxFinalize s).busOut = s.busOut := rfl
@[simp] theorem rxFinalize_arg : (rxFinalize s).arg = s.arg := rfl
@[simp] theorem rxFinalize_runc : (rxFinalize s).runc = s.runc := rfl
@[simp] theorem rxFinalize_runv : (rxFinalize s).runv = s.runv := rfl
@[simp] theorem rxFinalize_payOut : (rxFinalize s).payOut = s.payOut := rfl
@[simp] theorem rxFinalize_payIn : (rxFinalize s).payIn = s.payIn := rfl
@[simp] theorem rxFinalize_res : (rxFinalize s).res = s.res := rfl
@[simp] theorem rxFinalize_result : (rxFinalize s).result = s.result := rfl
@[simp] theorem rxFinalize_txBuf : (rxFinalize s).txBuf = s.txBuf := rfl
@[simp] theorem rxFinalize_txLen : (rxFinalize s).txLen = s.txLen := rfl
@[simp] theorem rxFinalize_txCur : (rxFinalize s).txCur = s.txCur := rfl
@[simp] theorem rxFinalize_txNext : (rxFinalize s).txNext = s.txNext := rfl
@[simp] theorem rxFinalize_txCmp : (rxFinalize s).txCmp = s.txCmp := rfl
@[simp] theorem rxFinalize_txWait : (rxFinalize s).txWait = s.txWait := rfl
@[simp] theorem rxFinalize_rxBuf : (rxFinalize s).rxBuf = writeEntry s.rxBuf s.rxCur.toNat capEntry := rfl
@[simp] theorem rxFinalize_rxCur : (rxFinalize s).rxCur = 0#16 := rfl
@[simp] theorem rxFinalize_rxLen : (rxFinalize s).rxLen = s.rxCur + 1#16 := rfl
@[simp] theorem rxFinalize_rxCapt : (rxFinalize s).rxCapt = false := rfl
@[simp] theorem rxFinalize_rxPrev : (rxFinalize s).rxPrev = s.rxPrev := rfl
@[simp] theorem rxFinalize_rxElapsed : (rxFinalize s).rxElapsed = s.rxElapsed := rfl
@[simp] theorem rxFinalize_rxTrunc : (rxFinalize s).rxTrunc = s.rxTrunc := rfl
@[simp] theorem rxFinalize_readData : (rxFinalize s).readData = s.readData := rfl
@[simp] theorem rxFinalize_inputs : (rxFinalize s).inputs = s.inputs := rfl
@[simp] theorem rxFinalize_draws : (rxFinalize s).draws = s.draws := rfl

end rxFinalize

section rxStore
variable (el : Nat) (s : State)

@[simp] theorem rxStore_params : (rxStore el s).params = s.params := rfl
@[simp] theorem rxStore_time : (rxStore el s).time = s.time := rfl
@[simp] theorem rxStore_busOut : (rxStore el s).busOut = s.busOut := rfl
@[simp] theorem rxStore_arg : (rxStore el s).arg = s.arg := rfl
@[simp] theorem rxStore_runc : (rxStore el s).runc = s.runc := rfl
@[simp] theorem rxStore_runv : (rxStore el s).runv = s.runv := rfl
@[simp] theorem rxStore_payOut : (rxStore el s).payOut = s.payOut := rfl
@[simp] theorem rxStore_payIn : (rxStore el s).payIn = s.payIn := rfl
@[simp] theorem rxStore_res : (rxStore el s).res = s.res := rfl
@[simp] theorem rxStore_result : (rxStore el s).result = s.result := rfl
@[simp] theorem rxStore_txBuf : (rxStore el s).txBuf = s.txBuf := rfl
@[simp] theorem rxStore_txLen : (rxStore el s).txLen = s.txLen := rfl
@[simp] theorem rxStore_txCur : (rxStore el s).txCur = s.txCur := rfl
@[simp] theorem rxStore_txNext : (rxStore el s).txNext = s.txNext := rfl
@[simp] theorem rxStore_txCmp : (rxStore el s).txCmp = s.txCmp := rfl
@[simp] theorem rxStore_txWait : (rxStore el s).txWait = s.txWait := rfl
@[simp] theorem rxStore_rxBuf : (rxStore el s).rxBuf = writeEntry s.rxBuf s.rxCur.toNat (BitVec.ofNat 16 el) := rfl
@[simp] theorem rxStore_rxCur : (rxStore el s).rxCur = s.rxCur + 1#16 := rfl
@[simp] theorem rxStore_rxLen : (rxStore el s).rxLen = s.rxLen := rfl
@[simp] theorem rxStore_rxCapt : (rxStore el s).rxCapt = s.rxCapt := rfl
@[simp] theorem rxStore_rxPrev : (rxStore el s).rxPrev = s.rxPrev := rfl
@[simp] theorem rxStore_rxElapsed : (rxStore el s).rxElapsed = s.rxElapsed := rfl
@[simp] theorem rxStore_rxTrunc : (rxStore el s).rxTrunc = s.rxTrunc := rfl
@[simp] theorem rxStore_readData : (rxStore el s).readData = s.readData := rfl
@[simp] theorem rxStore_inputs : (rxStore el s).inputs = s.inputs := rfl
@[simp] theorem rxStore_draws : (rxStore el s).draws = s.draws := rfl

end rxStore

section rxOverrun
variable (s : State)

@[simp] theorem rxOverrun_params : (rxOverrun s).params = s.params := rfl
@[simp] theorem rxOverrun_time : (rxOverrun s).time = s.time := rfl
@[simp] theorem rxOverrun_busOut : (rxOverrun s).busOut = s.busOut := rfl
@[simp] theorem rxOverrun_arg : (rxOverrun s).arg = s.arg := rfl
@[simp] theorem rxOverrun_runc : (rxOverrun s).runc = s.runc := rfl
@[simp] theorem rxOverrun_runv : (rxOverrun s).runv = s.runv := rfl
@[simp] theorem rxOverrun_payOut : (rxOverrun s).payOut = s.payOut := rfl
@[simp] theorem rxOverrun_payIn : (rxOverrun s).payIn = s.payIn := rfl
@[simp] theorem rxOverrun_res : (rxOverrun s).res = s.res := rfl
@[simp] theorem rxOverrun_result : (rxOverrun s).result = s.result := rfl
@[simp] theorem rxOverrun_txBuf : (rxOverrun s).txBuf = s.txBuf := rfl
@[simp] theorem rxOverrun_txLen : (rxOverrun s).txLen = s.txLen := rfl
@[simp] theorem rxOverrun_txCur : (rxOverrun s).txCur = s.txCur := rfl
@[simp] theorem rxOverrun_txNext : (rxOverrun s).txNext = s.txNext := rfl
@[simp] theorem rxOverrun_txCmp : (rxOverrun s).txCmp = s.txCmp := rfl
@[simp] theorem rxOverrun_txWait : (rxOverrun s).txWait = s.txWait := rfl
@[simp] theorem rxOverrun_rxBuf : (rxOverrun s).rxBuf = writeEntry s.rxBuf (s.params.runbufCap - 1) capEntry := rfl
@[simp] theorem rxOverrun_rxCur : (rxOverrun s).rxCur = 0#16 := rfl
@[simp] theorem rxOverrun_rxLen : (rxOverrun s).rxLen = BitVec.ofNat 16 s.params.runbufCap := rfl
@[simp] theorem rxOverrun_rxCapt : (rxOverrun s).rxCapt = false := rfl
@[simp] theorem rxOverrun_rxPrev : (rxOverrun s).rxPrev = s.rxPrev := rfl
@[simp] theorem rxOverrun_rxElapsed : (rxOverrun s).rxElapsed = s.rxElapsed := rfl
@[simp] theorem rxOverrun_rxTrunc : (rxOverrun s).rxTrunc = true := rfl
@[simp] theorem rxOverrun_readData : (rxOverrun s).readData = s.readData := rfl
@[simp] theorem rxOverrun_inputs : (rxOverrun s).inputs = s.inputs := rfl
@[simp] theorem rxOverrun_draws : (rxOverrun s).draws = s.draws := rfl

end rxOverrun

end Sys2Proof.Machine
end

