-- ==== Sys2Proof/Laws/Ops.lean ====
section
/-! SUPPORT. What the shared operations over arrays, completions, host accesses and the environment can do. -/

namespace Sys2Proof.Machine

@[simp] theorem length_writeEntry (a : List Entry) (k : Nat) (v : Entry) : (writeEntry a k v).length = a.length := by
  simp [writeEntry]

theorem readEntry_writeEntry_same (a : List Entry) (k : Nat) (v : Entry) (h : k < a.length) :
    readEntry (writeEntry a k v) k = v := by
  simp [readEntry, writeEntry, List.getD_eq_getElem?_getD, h]

theorem readEntry_writeEntry_other (a : List Entry) (k j : Nat) (v : Entry) (h : j ≠ k) :
    readEntry (writeEntry a k v) j = readEntry a j := by
  simp [readEntry, writeEntry, List.getD_eq_getElem?_getD, List.getElem?_set_ne (Ne.symm h)]

@[simp] theorem length_overwrite (xs vs : List Entry) : (overwrite xs vs).length = xs.length := by
  induction xs generalizing vs with
  | nil => cases vs <;> rfl
  | cons x xs ih => cases vs with
    | nil => rfl
    | cons v vs => simp [overwrite, ih]

/-- `overwrite` replaces the first entries and keeps the later ones. -/
theorem overwrite_eq_append_drop (xs vs : List Entry) (h : vs.length ≤ xs.length) :
    overwrite xs vs = vs ++ xs.drop vs.length := by
  induction xs generalizing vs with
  | nil => cases vs with
    | nil => rfl
    | cons v vs => simp at h
  | cons x xs ih => cases vs with
    | nil => rfl
    | cons v vs => simpa [overwrite] using ih vs (by simpa using h)

theorem readEntry_overwrite_lt (xs vs : List Entry) (k : Nat) (h : vs.length ≤ xs.length) (hk : k < vs.length) :
    readEntry (overwrite xs vs) k = readEntry vs k := by
  rw [overwrite_eq_append_drop xs vs h]
  simp [readEntry, List.getD_eq_getElem?_getD, List.getElem?_append_left hk]

theorem readEntry_overwrite_ge (xs vs : List Entry) (k : Nat) (h : vs.length ≤ xs.length) (hk : vs.length ≤ k) :
    readEntry (overwrite xs vs) k = readEntry xs k := by
  rw [overwrite_eq_append_drop xs vs h]
  simp [readEntry, List.getD_eq_getElem?_getD, List.getElem?_append_right hk, Nat.add_sub_cancel' hk]

/-- Taking the environment's next action changes only the schedule and the draw counter. -/
theorem takeInput_state (s : State) :
    ∃ is n, (takeInput s).2 = { s with inputs := is, draws := n } := by
  unfold takeInput
  split
  · exact ⟨s.inputs, s.draws + 1, rfl⟩
  · rename_i i rest _
    exact ⟨rest, s.draws, rfl⟩

theorem takeInput_of_cons (s : State) (i : Input) (rest : List Input) (h : s.inputs = i :: rest) :
    takeInput s = (i, { s with inputs := rest }) := by
  simp [takeInput, h]

theorem complete_eq_next (r : Result) (s t : State) (h : complete r s = .next t) : t = setResult r s := by
  simpa [complete, eq_comm] using h

theorem completeWithRes_eq_next (v : Word) (s t : State) (h : completeWithRes v s = .next t) :
    t = setResult (codeOnly .ok) (setRes v s) := complete_eq_next _ _ _ h

theorem refuseWith_eq_next (c : Code) (s t : State) (h : refuseWith c s = .next t) :
    t = setResult (codeOnly c) (setRes 0#32 s) := complete_eq_next _ _ _ h

/-- What a host read answers: the register's value on the port and nothing else, or AccessError. -/
theorem hostRead_cases (size : Nat) (addr : Offset) (s : State) :
    (∃ r, decodeAccess s.params size addr = .ok r
        ∧ hostRead size addr s = .next { s with readData := readReg s r })
      ∨ (∃ e, decodeAccess s.params size addr = .error e ∧ hostRead size addr s = accessError addr .read) := by
  unfold hostRead
  cases h : decodeAccess s.params size addr with
  | error e => exact .inr ⟨e, rfl, rfl⟩
  | ok r => exact .inl ⟨r, rfl, rfl⟩

/-- What a host write answers: the register's own write, or AccessError. -/
theorem hostWrite_cases (size : Nat) (addr : Offset) (v : Word) (s : State) :
    (∃ r, decodeAccess s.params size addr = .ok r ∧ hostWrite size addr v s = writeReg v s r)
      ∨ (∃ e, decodeAccess s.params size addr = .error e
          ∧ hostWrite size addr v s = accessError addr .write) := by
  unfold hostWrite
  cases h : decodeAccess s.params size addr with
  | error e => exact .inr ⟨e, rfl, rfl⟩
  | ok r => exact .inl ⟨r, rfl, rfl⟩

/-- A write to a register other than CMD changes that register at most. -/
theorem writeReg_cases (v : Word) (s : State) (r : HostReg) :
    (r = .cmd ∧ writeReg v s r = exec (decode v) s)
      ∨ (r = .arg ∧ writeReg v s r = .next { s with arg := v })
      ∨ (r = .runc ∧ writeReg v s r = .next { s with runc := BitVec.ofNat 5 (min v.toNat Config.runvCap) })
      ∨ (∃ k, r = .runv k ∧ writeReg v s r = .next { s with runv := writeEntry s.runv k (v.setWidth 16) })
      ∨ (∃ k, r = .payOut k ∧ writeReg v s r = .next { s with payOut := writeEntry s.payOut k (v.setWidth 16) })
      ∨ writeReg v s r = .next s := by
  cases r <;> simp [writeReg]

end Sys2Proof.Machine
end

