-- ==== Sys2Proof/Laws/Transcoder.lean ====
section
/-! SUPPORT. What the pure functions of the transcoder, the frame codec and the Datagram Assembler do. -/

namespace Sys2Proof.Machine

/-- The run lengths of a scan sum to the bits scanned. -/
theorem sum_scanRuns (v : Level) (n : Nat) (bs : List Level) : (scanRuns v n bs).sum = n + bs.length := by
  induction bs generalizing v n with
  | nil => simp [scanRuns]
  | cons b bs ih =>
    unfold scanRuns
    split
    · rw [ih, List.length_cons]; omega
    · rw [List.sum_cons, ih, List.length_cons]; omega

theorem length_scanRuns_pos (v : Level) (n : Nat) (bs : List Level) : 1 ≤ (scanRuns v n bs).length := by
  induction bs generalizing v n with
  | nil => simp [scanRuns]
  | cons b bs ih =>
    unfold scanRuns
    split
    · exact ih v (n + 1)
    · simp

theorem length_scanRuns_le (v : Level) (n : Nat) (bs : List Level) : (scanRuns v n bs).length ≤ bs.length + 1 := by
  induction bs generalizing v n with
  | nil => simp [scanRuns]
  | cons b bs ih =>
    unfold scanRuns
    split
    · exact (ih v (n + 1)).trans (by simp)
    · simpa using ih b 1

/-- A scan that starts inside a run gives no empty run. -/
theorem pos_of_mem_scanRuns (v : Level) (n : Nat) (bs : List Level) (hn : 1 ≤ n) :
    ∀ r ∈ scanRuns v n bs, 1 ≤ r := by
  induction bs generalizing v n with
  | nil => simpa [scanRuns] using hn
  | cons b bs ih =>
    unfold scanRuns
    split
    · exact ih v (n + 1) (by omega)
    · simpa using ⟨hn, ih b 1 (by omega)⟩

@[simp] theorem length_frameBits (f : Frame) : (frameBits f).length = 11 := by simp [frameBits, Config.frameBits]

theorem length_expandRuns (j : Nat) (rs : List Nat) : (expandRuns j rs).length = rs.sum := by
  induction rs generalizing j with
  | nil => rfl
  | cons r rs ih => simp [expandRuns, ih]

theorem expandRuns_append (j : Nat) (as bs : List Nat) :
    expandRuns j (as ++ bs) = expandRuns j as ++ expandRuns (j + as.length) bs := by
  induction as generalizing j with
  | nil => simp [expandRuns]
  | cons a as ih => simp [expandRuns, ih, Nat.add_assoc, Nat.add_comm 1]

/-- The groups of `decode_runs` use every run in order. -/
theorem flatten_groupRuns (g : List Nat) (acc : Nat) (bs : List Nat) : (groupRuns g acc bs).flatten = g ++ bs := by
  induction bs generalizing g acc with
  | nil => unfold groupRuns; split <;> simp_all
  | cons b bs ih =>
    unfold groupRuns
    split
    · rw [ih, List.append_assoc, List.singleton_append]
    · rw [List.flatten_cons, ih]; simp

theorem runLevel_add_two (j : Nat) : runLevel (j + 2) = runLevel j := by simp [runLevel]

/-- The groups of a datagram whose groups are whole frames are those frames' runs. -/
theorem groupRuns_append_of_sum (g : List Nat) (acc : Nat) (as bs : List Nat) (has : as ≠ [])
    (hpos : ∀ r ∈ as, 1 ≤ r) (hsum : acc + as.sum = 11) :
    groupRuns g acc (as ++ bs) = (g ++ as) :: groupRuns [] 0 bs := by
  induction as generalizing g acc with
  | nil => exact absurd rfl has
  | cons a as ih =>
    rw [List.sum_cons] at hsum
    rw [List.cons_append, groupRuns]
    cases as with
    | nil =>
      rw [List.sum_nil] at hsum
      rw [if_neg (by simp [Config.frameBits]; omega)]
      simp
    | cons c cs =>
      have hc : 1 ≤ c := hpos c (by simp)
      rw [List.sum_cons] at hsum
      rw [if_pos (by simp [Config.frameBits]; omega)]
      rw [ih (g ++ [a]) (acc + a) (by simp) (fun r hr => hpos r (List.mem_cons_of_mem _ hr))
        (by rw [List.sum_cons]; omega)]
      simp

end Sys2Proof.Machine
end

