-- ==== Sys2Proof/Laws/Commands.lean ====
section
/-! SUPPORT. What each command with more than one outcome can answer. -/

namespace Sys2Proof.Machine

/-- ENCODE_MESSAGE refuses with one code, or accepts the message's runs. -/
theorem execEncodeMessage_cases (s : State) :
    (s.txLen ≠ 0#16 ∧ execEncodeMessage s = refuseWith .busy s)
      ∨ (s.txLen = 0#16 ∧ outboundPayloads s = none ∧ execEncodeMessage s = refuseWith .malformed s)
      ∨ (s.txLen = 0#16 ∧ ∃ ps, outboundPayloads s = some ps
          ∧ ((wellFormedMessage ps = false ∧ execEncodeMessage s = refuseWith .malformed s)
            ∨ (wellFormedMessage ps = true ∧ s.params.runbufCap < (messageRuns ps).length
                ∧ execEncodeMessage s = refuseWith .tooLong s)
            ∨ (wellFormedMessage ps = true ∧ (messageRuns ps).length ≤ s.params.runbufCap
                ∧ execEncodeMessage s = acceptMessage (messageRuns ps) s))) := by
  unfold execEncodeMessage
  by_cases h0 : s.txLen = 0#16
  · cases ho : outboundPayloads s with
    | none => simp [h0]
    | some ps =>
      cases hw : wellFormedMessage ps with
      | false => simp [h0, hw]
      | true =>
        by_cases hl : s.params.runbufCap < (messageRuns ps).length
        · simp [h0, hw, hl]
        · simp [h0, hw, hl, Nat.not_lt.mp hl]
  · simp [h0]

/-- DECODE_MESSAGE answers NODATA, or delivers the published datagram's frames. -/
theorem execDecodeMessage_cases (s : State) :
    (s.rxLen = 0#16 ∧ execDecodeMessage s = refuseWith .nodata s)
      ∨ (s.rxLen ≠ 0#16 ∧ execDecodeMessage s = deliver (inboundFrames s) s) := by
  unfold execDecodeMessage
  by_cases h : s.rxLen = 0#16 <;> simp [h]

/-- A terminator found after payloads that are none ends the message there. -/
theorem untilTerminator_append (ps rest : List Entry) (h : ∀ p ∈ ps, p ≠ Config.terminator) :
    untilTerminator (ps ++ Config.terminator :: rest) = some ps := by
  induction ps with
  | nil => simp [untilTerminator]
  | cons p ps ih =>
    have hp : p ≠ Config.terminator := h p (by simp)
    simp [untilTerminator, hp, ih fun q hq => h q (List.mem_cons_of_mem _ hq)]

/-- The payloads found are followed by a terminator and hold none. -/
theorem untilTerminator_eq_some (es ps : List Entry) (h : untilTerminator es = some ps) :
    (∀ p ∈ ps, p ≠ Config.terminator) ∧ ∃ rest, es = ps ++ Config.terminator :: rest := by
  induction es generalizing ps with
  | nil => simp [untilTerminator] at h
  | cons e es ih =>
    unfold untilTerminator at h
    split at h
    · rename_i he
      obtain rfl : [] = ps := by simpa using h
      exact ⟨by simp, es, by simp [he]⟩
    · rename_i he
      obtain ⟨qs, hq, rfl⟩ := Option.map_eq_some_iff.mp h
      obtain ⟨hne, rest, hr⟩ := ih qs hq
      exact ⟨by simpa [he] using hne, rest, by simp [hr]⟩

theorem untilTerminator_eq_none (es : List Entry) :
    untilTerminator es = none ↔ ∀ e ∈ es, e ≠ Config.terminator := by
  induction es with
  | nil => simp [untilTerminator]
  | cons e es ih =>
    unfold untilTerminator
    by_cases he : e = Config.terminator <;> simp [he, ih]

end Sys2Proof.Machine
end

