-- ==== Sys2Proof/Laws/Engines.lean ====
section
/-! SUPPORT. What one step of each engine can do (R142, R161). -/

namespace Sys2Proof.Machine

/-- `tx_act()` starts the cursor's run, or completes the drain. -/
theorem txAct_cases (s : State) :
    (s.txCur.toNat < s.txLen.toNat ∧ txAct s = startRun s.txCur.toNat s)
      ∨ (s.txLen.toNat ≤ s.txCur.toNat ∧ txAct s = drainComplete s) := by
  unfold txAct
  by_cases h : s.txCur.toNat < s.txLen.toNat
  · simp [h]
  · simp [h, Nat.not_lt.mp h]

/-- Everything `tx_step()` can do. -/
theorem txStep_cases (s : State) :
    (s.txWait = true ∧ txDue s = true ∧ txStep s = txAct { s with txWait := false })
      ∨ (s.txWait = true ∧ txDue s = false ∧ txStep s = s)
      ∨ (s.txWait = false ∧ s.time ≠ s.txCmp ∧ txStep s = s)
      ∨ (s.txWait = false ∧ s.time = s.txCmp ∧ s.txLen = 0#16 ∧ txStep s = heartbeat s)
      ∨ (s.txWait = false ∧ s.time = s.txCmp ∧ s.txLen ≠ 0#16 ∧ s.txCur = 0#16
          ∧ txStep s = txAct { s with txNext := s.time })
      ∨ (s.txWait = false ∧ s.time = s.txCmp ∧ s.txLen ≠ 0#16 ∧ s.txCur ≠ 0#16 ∧ txDue s = true
          ∧ txStep s = txAct s)
      ∨ (s.txWait = false ∧ s.time = s.txCmp ∧ s.txLen ≠ 0#16 ∧ s.txCur ≠ 0#16 ∧ txDue s = false
          ∧ txStep s = { s with txWait := true }) := by
  unfold txStep txFire
  by_cases hw : s.txWait <;> by_cases hd : txDue s <;> by_cases ht : s.time = s.txCmp <;>
    by_cases hl : s.txLen = 0#16 <;> by_cases hc : s.txCur = 0#16 <;> simp [hw, hd, ht, hl, hc]

/-- Everything `rx_edge(el)` can do. -/
theorem rxEdge_cases (el : Nat) (s : State) :
    (el = Config.msgPeriodUs ∧ s.rxCapt = true ∧ rxEdge el s = rxFinalize s)
      ∨ (el = Config.msgPeriodUs ∧ s.rxCapt = false ∧ s.rxLen = 0#16
          ∧ rxEdge el s = { s with rxCapt := true, rxCur := 0#16 })
      ∨ (el = Config.msgPeriodUs ∧ s.rxCapt = false ∧ s.rxLen ≠ 0#16 ∧ rxEdge el s = s)
      ∨ (el ≠ Config.msgPeriodUs ∧ s.rxCapt = true ∧ s.rxCur.toNat < s.params.runbufCap - 1
          ∧ rxEdge el s = rxStore el s)
      ∨ (el ≠ Config.msgPeriodUs ∧ s.rxCapt = true ∧ s.params.runbufCap - 1 ≤ s.rxCur.toNat
          ∧ rxEdge el s = rxOverrun s)
      ∨ (el ≠ Config.msgPeriodUs ∧ s.rxCapt = false ∧ rxEdge el s = s) := by
  unfold rxEdge rxBeginOrDrop
  by_cases he : el = Config.msgPeriodUs <;> by_cases hc : s.rxCapt <;> by_cases hl : s.rxLen = 0#16 <;>
    by_cases hr : s.rxCur.toNat < s.params.runbufCap - 1 <;> simp [he, hc, hl, hr] <;> omega

/-- Everything `rx_step(bus_in)` can do. -/
theorem rxStep_cases (b : Level) (s : State) :
    (b ≠ s.rxPrev ∧ rxStep b s = rxEdge (rxElapsedNow s) { s with rxPrev := b, rxElapsed := 0#12 })
      ∨ (b = s.rxPrev ∧ rxStep b s = { s with rxElapsed := BitVec.ofNat 12 (rxElapsedNow s) }) := by
  unfold rxStep
  by_cases h : b = s.rxPrev <;> simp [h]

theorem rxElapsedNow_le (s : State) : rxElapsedNow s ≤ Config.msgPeriodUs := Nat.min_le_right _ _

theorem one_le_rxElapsedNow (s : State) : 1 ≤ rxElapsedNow s := by
  simp [rxElapsedNow, Config.msgPeriodUs]

theorem ticks_append (as bs : List Level) (s : State) : ticks (as ++ bs) s = ticks bs (ticks as s) := by
  induction as generalizing s with
  | nil => rfl
  | cons a as ih => exact ih (tick a s)

/-- What `rx_step` leaves: everything but the Receive Capture Engine's own elements. -/
theorem rxStep_frame (b : Level) (s : State) :
    rxStep b s = { s with
      rxBuf := (rxStep b s).rxBuf, rxCur := (rxStep b s).rxCur, rxLen := (rxStep b s).rxLen
      rxCapt := (rxStep b s).rxCapt, rxPrev := (rxStep b s).rxPrev, rxElapsed := (rxStep b s).rxElapsed
      rxTrunc := (rxStep b s).rxTrunc } := by
  simp only [rxStep, rxEdge, rxFinalize, rxBeginOrDrop, rxStore, rxOverrun]
  repeat' split
  all_goals rfl

/-- What `tx_step` leaves: everything but the Transmit Scheduler's own elements. -/
theorem txStep_frame (s : State) :
    txStep s = { s with
      busOut := (txStep s).busOut, txLen := (txStep s).txLen, txCur := (txStep s).txCur
      txNext := (txStep s).txNext, txCmp := (txStep s).txCmp, txWait := (txStep s).txWait } := by
  simp only [txStep, txFire, txAct, heartbeat, startRun, drainComplete]
  repeat' split
  all_goals rfl

theorem afterActs_append (is js : List Input) (s : State) :
    afterActs (is ++ js) s = afterActs js (afterActs is s) := by
  induction is generalizing s with
  | nil => rfl
  | cons i is ih => exact ih (afterAct i s)

/-- `sdiff32` is not negative exactly when the first operand is less than 2^31 ticks past the second. -/
theorem sdiff32_nonneg (a b : Word) : 0 ≤ sdiff32 a b ↔ (a - b).toNat < 2 ^ 31 := by
  unfold sdiff32
  rw [BitVec.toInt_eq_toNat_cond]
  have := (a - b).isLt
  split <;> omega

end Sys2Proof.Machine
end

