-- ==== Sys2Proof/Laws/PerInstr.lean ====
section
/-! SUPPORT. Statements about every instruction as syntax, one lemma per constructor. -/

namespace Sys2Proof.Laws

/-- The ignored bits of a CMD word make no difference, whatever they hold: a well-formed instruction is read from its
OP alone (R101, R105). -/
def OpReadAlone.Statement (i : Instr) : Prop :=
  i.wellFormed = true → decodeOp (encodeOp i) = i

theorem OpReadAlone.nop : OpReadAlone.Statement .nop := fun _ => rfl
theorem OpReadAlone.runsFromFrame : OpReadAlone.Statement .runsFromFrame := fun _ => rfl
theorem OpReadAlone.frameFromRuns : OpReadAlone.Statement .frameFromRuns := fun _ => rfl
theorem OpReadAlone.ticksToBitLength : OpReadAlone.Statement .ticksToBitLength := fun _ => rfl
theorem OpReadAlone.bitLengthToTicks : OpReadAlone.Statement .bitLengthToTicks := fun _ => rfl
theorem OpReadAlone.frameFromPayload : OpReadAlone.Statement .frameFromPayload := fun _ => rfl
theorem OpReadAlone.payloadFromFrame : OpReadAlone.Statement .payloadFromFrame := fun _ => rfl
theorem OpReadAlone.encodeMessage : OpReadAlone.Statement .encodeMessage := fun _ => rfl
theorem OpReadAlone.decodeMessage : OpReadAlone.Statement .decodeMessage := fun _ => rfl
theorem OpReadAlone.reserved9 : OpReadAlone.Statement .reserved9 := fun _ => rfl
theorem OpReadAlone.reservedAB (op : BitVec 4) : OpReadAlone.Statement (.reservedAB op) := by
  unfold OpReadAlone.Statement; revert op; decide
theorem OpReadAlone.reservedCF (op : BitVec 4) : OpReadAlone.Statement (.reservedCF op) := by
  unfold OpReadAlone.Statement; revert op; decide

end Sys2Proof.Laws
end

