-- ==== Sys2Proof/Laws/Step.lean ====
section
/-! SUPPORT. Everything one step of the machine can do, said once. -/

namespace Sys2Proof.Machine

/-- A 32-bit access at offset 0 reaches CMD, and only such an access does. -/
theorem decodeAccess_eq_cmd (p : Config.Params) (size : Nat) (addr : Offset)
    (h : decodeAccess p size addr = .ok .cmd) : size = 4 ∧ addr = 0x000#12 := by
  unfold decodeAccess at h
  split at h
  · cases h
  · rename_i hs
    split at h
    · cases h
    · have hlt := addr.isLt
      refine ⟨Decidable.not_not.mp hs, BitVec.eq_of_toNat_eq ?_⟩
      generalize hn : addr.toNat = n at *
      show n = 0
      unfold decodeOffset entryReg scalarReg at h
      repeat' split at h
      all_goals first | rfl | cases h

/-- If a step answers a next state, it is one of: a TICK, a read of a register, a command, a write to an operand
register, an ignored write, a reset. Each acts on the state with the environment's action taken. -/
theorem step_cases (s t : State) (h : step s = .next t) :
    ∃ u : State, u = (takeInput s).2 ∧ (∃ is n, u = { s with inputs := is, draws := n }) ∧
      ((∃ b, (takeInput s).1 = .tick b ∧ t = tick b u)
        ∨ (∃ size a r, (takeInput s).1 = .hostRead size a ∧ decodeAccess u.params size a = .ok r
            ∧ t = { u with readData := readReg u r })
        ∨ (∃ w, (takeInput s).1 = .hostWrite 4 0x000#12 w ∧ exec (decode w) u = .next t)
        ∨ (∃ size a v, (takeInput s).1 = .hostWrite size a v
            ∧ (t = u ∨ t = { u with arg := v }
              ∨ t = { u with runc := BitVec.ofNat 5 (min v.toNat Config.runvCap) }
              ∨ (∃ k, t = { u with runv := writeEntry u.runv k (v.setWidth 16) })
              ∨ ∃ k, t = { u with payOut := writeEntry u.payOut k (v.setWidth 16) }))
        ∨ ((takeInput s).1 = .reset ∧ t = resetInput u)) := by
  refine ⟨(takeInput s).2, rfl, takeInput_state s, ?_⟩
  unfold step at h
  generalize (takeInput s).2 = u at h ⊢
  cases hi : (takeInput s).1 with
  | tick b =>
    rw [hi] at h
    exact .inl ⟨b, rfl, by simpa [act, eq_comm] using h⟩
  | hostRead size a =>
    rw [hi] at h
    obtain ⟨r, hr, e⟩ | ⟨_, _, e⟩ := hostRead_cases size a u
    · exact .inr (.inl ⟨size, a, r, rfl, hr, by simpa [act, e, eq_comm] using h⟩)
    · rw [act, e] at h
      cases h
  | hostWrite size a v =>
    rw [hi] at h
    obtain ⟨r, hr, e⟩ | ⟨_, _, e⟩ := hostWrite_cases size a v u
    · rw [act, e] at h
      obtain ⟨rfl, e'⟩ | ⟨_, e'⟩ | ⟨_, e'⟩ | ⟨k, _, e'⟩ | ⟨k, _, e'⟩ | e' := writeReg_cases v u r
      · obtain ⟨rfl, rfl⟩ := decodeAccess_eq_cmd u.params size a hr
        exact .inr (.inr (.inl ⟨v, rfl, e' ▸ h⟩))
      all_goals
        refine .inr (.inr (.inr (.inl ⟨size, a, v, rfl, ?_⟩)))
        rw [e'] at h
        injection h with h
        subst h
        first
          | exact .inl rfl
          | exact .inr (.inl rfl)
          | exact .inr (.inr (.inl rfl))
          | exact .inr (.inr (.inr (.inl ⟨k, rfl⟩)))
          | exact .inr (.inr (.inr (.inr ⟨k, rfl⟩)))
    · rw [act, e] at h
      cases h
  | reset =>
    rw [hi] at h
    exact .inr (.inr (.inr (.inr ⟨rfl, by simpa [act, eq_comm] using h⟩)))

end Sys2Proof.Machine
end

