-- ==== Sys2Proof/Tests/Slice0.lean ====
section
/-! SUPPORT. The model's own tests: well-formedness, words of spec/opcode_table.json written out, vectors of
spec/95_test_vectors.md (named in each comment), and for every statement with hypotheses a state that meets them. -/

namespace Sys2Proof.Tests

open Sys2Proof Machine

/-- The parameters of 95_test_vectors.md: RUNBUF_CAP = 64, MSG_CAP = 12, MARGIN_US = 20. -/
abbrev testParams : Config.Params := { runbufCap := 64, msgCap := 12, marginUs := 20 }

/-- The state right after reset, with those parameters. -/
abbrev base : State := State.resetWith testParams

/-- One field of the state an outcome answers. -/
abbrev get {α : Type} (o : StepOutcome) (f : State → α) : Option α :=
  match o with
  | .next t => some (f t)
  | .fault _ => none
  | .refused _ => none

/-- An array of `n` entries that begins with `xs` and goes on with zeros. -/
abbrev padded (n : Nat) (xs : List Entry) : List Entry := xs ++ List.replicate (n - xs.length) 0#16

abbrev withArg (v : Word) : State := { base with arg := v }
abbrev withRuns (rs : List Entry) : State :=
  { base with runv := padded 16 rs, runc := BitVec.ofNat 5 rs.length }
abbrev withPayOut (ps : List Entry) : State := { base with payOut := padded 13 ps }
abbrev withRxBuf (ds : List Entry) : State :=
  { base with rxBuf := padded 64 ds, rxLen := BitVec.ofNat 16 ds.length }

/-- The message of the source's worked example W1 and its durations. -/
abbrev w1 : List Entry := [0x1F1#16, 0x002#16]
abbrev w1Runs : List Entry := [208#16, 208#16, 624#16, 1248#16, 416#16, 208#16, 1456#16, 208#16]
abbrev w1Captured : List Entry := [208#16, 208#16, 624#16, 1248#16, 416#16, 208#16, 1456#16, 2291#16]
abbrev w1Ready : State := withPayOut (w1 ++ [0xFFFF#16])
abbrev w1Sent : State := { base with txBuf := padded 64 w1Runs, txLen := 8#16 }
/-- One tick before the drain start of vector S2. -/
abbrev w1Starting : State := { w1Sent with time := 2290#32 }
/-- Run 0 on the wire, one tick before the early firing of vector S2. -/
abbrev w1Firing : State :=
  { w1Sent with time := 2478#32, busOut := false, txCur := 1#16, txNext := 2499#32, txCmp := 2479#32 }
/-- Waiting for the end of run 0, some ticks before it. -/
abbrev w1Waiting : State := { w1Firing with time := 2490#32, txWait := true }
/-- The last tick of the wait for the end of run 0. -/
abbrev w1RunEnd : State := { w1Firing with time := 2498#32, txWait := true }
/-- The last tick of the wait for the end of the last run. -/
abbrev w1LastEnd : State :=
  { w1Sent with time := 6866#32, txCur := 8#16, txNext := 6867#32, txCmp := 6847#32, txWait := true }
/-- Capturing, two runs stored, `el` ticks since the last edge. -/
abbrev capturing (el : BitVec 12) : State :=
  { base with rxBuf := padded 64 [208#16, 208#16], rxCur := 2#16, rxCapt := true, rxElapsed := el }

/-! ### Well-formedness and encodings -/

theorem test_wellFormed_refuses_foreign_op_AB : (Instr.reservedAB 0x9#4).wellFormed = false := by decide
theorem test_wellFormed_refuses_foreign_op_CF : (Instr.reservedCF 0xB#4).wellFormed = false := by decide
theorem test_params_refuses_short_runbuf : Config.Params.wellFormed ⟨1, 12, 20⟩ = false := by decide
theorem test_params_refuses_long_runbuf : Config.Params.wellFormed ⟨65, 12, 20⟩ = false := by decide
theorem test_params_refuses_no_message : Config.Params.wellFormed ⟨64, 0, 20⟩ = false := by decide
theorem test_params_refuses_long_message : Config.Params.wellFormed ⟨64, 32, 20⟩ = false := by decide
theorem test_params_refuses_long_margin : Config.Params.wellFormed ⟨64, 12, 208⟩ = false := by decide

/-- The opcode map of R103, each word written out from it. -/
theorem test_decode_table :
    [0x0#32, 0x1#32, 0x2#32, 0x3#32, 0x4#32, 0x5#32, 0x6#32, 0x7#32, 0x8#32, 0x9#32].map decode
      = [.nop, .runsFromFrame, .frameFromRuns, .ticksToBitLength, .bitLengthToTicks, .frameFromPayload,
         .payloadFromFrame, .encodeMessage, .decodeMessage, .reserved9] := by decide
theorem test_decode_reserved_AB : [0xA#32, 0xB#32].map decode = [.reservedAB 0xA#4, .reservedAB 0xB#4] := by decide
theorem test_decode_reserved_CF : [0xC#32, 0xD#32, 0xE#32, 0xF#32].map decode
    = [.reservedCF 0xC#4, .reservedCF 0xD#4, .reservedCF 0xE#4, .reservedCF 0xF#4] := by decide
/-- Vectors M21 and M22: bits 31:4 are ignored. -/
theorem test_decode_ignores_high_bits : decode 0xFFFFFFF9#32 = .reserved9 ∧ decode 0x12#32 = .frameFromRuns := by
  decide
theorem test_decodeTableWord : decodeTableWord 32 7 = some .encodeMessage := by decide

/-- Vectors A1 to A4 and A10. -/
theorem test_access_errors : decodeAccess testParams 4 0x038#12 = .error .reservedOffset
    ∧ decodeAccess testParams 4 0x006#12 = .error .misaligned ∧ decodeAccess testParams 2 0x004#12 = .error .size
    ∧ decodeAccess testParams 4 0x0B4#12 = .error .entryOutOfRange
    ∧ decodeAccess testParams 4 0x380#12 = .error .reservedOffset := by
  decide +kernel
/-- Vector A5: 0x0B0 is PAY_OUT[12]. -/
theorem test_access_payOut : decodeAccess testParams 4 0x0B0#12 = .ok (.payOut 12) := by
  decide +kernel

/-! ### Commands -/

/-- Vector M19. -/
theorem test_nop : get (exec .nop { base with res := 2#32, result := ⟨.ok, false, true, false, false⟩ })
    (fun t => (resultWord t.result, t.res)) = some (0x00#32, 2#32) := by decide
/-- Vector T1. -/
theorem test_runsFromFrame : get (exec .runsFromFrame (withArg 0xFFFFF7E2#32))
    (fun t => (t.runv.take 4, t.runc, t.res)) = some ([1#16, 1#16, 3#16, 6#16], 4#5, 4#32) := by decide
/-- Vector T7. -/
theorem test_runsFromFrame_startBit : get (exec .runsFromFrame (withArg 0x001#32))
    (fun t => (t.runv.take 2, t.runc)) = some ([1#16, 10#16], 2#5) := by decide
/-- Vector T14: padded with level 0. -/
theorem test_frameFromRuns_pads : get (exec .frameFromRuns (withRuns [2#16, 1#16, 7#16])) (·.res)
    = some 0x004#32 := by decide
/-- Vector T19: cut at 11 bits. -/
theorem test_frameFromRuns_cuts : get (exec .frameFromRuns (withRuns [2#16, 1#16, 7#16, 11#16])) (·.res)
    = some 0x404#32 := by decide
/-- Vector T22. -/
theorem test_ticksToBitLength : get (exec .ticksToBitLength (withArg 103#32)) (·.res) = some 0#32
    ∧ get (exec .ticksToBitLength (withArg 104#32)) (·.res) = some 1#32 := by decide
/-- Vector T24. -/
theorem test_ticksToBitLength_max : get (exec .ticksToBitLength (withArg 0xFFFFFFFF#32)) (·.res)
    = some 20648881#32 := by decide
/-- Vector T28: wrapped. -/
theorem test_bitLengthToTicks_wraps : get (exec .bitLengthToTicks (withArg 20648882#32)) (·.res)
    = some 160#32 := by decide
/-- Vector F6: bit 9 dropped. -/
theorem test_frameFromPayload : get (exec .frameFromPayload (withArg 0x3FF#32)) (·.res) = some 0x7FE#32 := by decide
/-- Vector F9. -/
theorem test_payloadFromFrame : get (exec .payloadFromFrame (withArg 0x7E2#32))
    (fun t => (t.res, resultWord t.result)) = some (0x1F1#32, 0x08#32) := by decide
/-- Vector F11: stop bit 0. -/
theorem test_payloadFromFrame_invalid : get (exec .payloadFromFrame (withArg 0x3E2#32))
    (fun t => (t.res, resultWord t.result)) = some (0x1F1#32, 0x00#32) := by decide
/-- Vector M1. -/
theorem test_encodeMessage : get (exec .encodeMessage w1Ready)
    (fun t => (t.txBuf.take 8, t.txLen, t.res)) = some (w1Runs, 8#16, 8#32) := by decide
/-- Vector M4: marker on the second payload. -/
theorem test_encodeMessage_marker : get (exec .encodeMessage (withPayOut [0x1F1#16, 0x102#16, 0xFFFF#16]))
    (fun t => (resultWord t.result, t.txLen)) = some (0x02#32, 0#16) := by decide
/-- Vector M10. -/
theorem test_decodeMessage : get (exec .decodeMessage (withRxBuf w1Captured))
    (fun t => (t.payIn.take 3, t.res, t.rxLen, resultWord t.result))
      = some ([0x1F1#16, 0x002#16, 0xFFFF#16], 2#32, 0#16, 0x00#32) := by decide
/-- Vector M12: a short datagram is corrupted. -/
theorem test_decodeMessage_corrupt : get (exec .decodeMessage (withRxBuf [208#16, 208#16, 624#16, 1248#16, 2291#16]))
    (fun t => (t.payIn.take 3, resultWord t.result)) = some ([0x1F1#16, 0x000#16, 0xFFFF#16], 0x10#32) := by decide
/-- Vector M20. -/
theorem test_reserved : get (exec (.reservedCF 0xF#4) { base with res := 2#32 })
    (fun t => (resultWord t.result, t.res)) = some (0x05#32, 2#32) := by decide
theorem test_reserved9 : get (exec .reserved9 base) (fun t => resultWord t.result) = some 0x05#32 := by decide
theorem test_reservedAB : get (exec (.reservedAB 0xA#4) base) (fun t => resultWord t.result) = some 0x05#32 := by
  decide

/-! ### Host bus, engines, reset -/

/-- Vectors A7 and A8. -/
theorem test_writes : get (act (wr .runc 100#32) base) (·.runc) = some 16#5
    ∧ get (act (wr (.runv 0) 0x12345#32) base) (fun t => t.runv.take 1) = some [0x2345#16] := by decide
/-- Vectors V2 and V3. -/
theorem test_reads : get (act (rd .txCmp) base) (·.readData) = some 2291#32
    ∧ get (act (rd .status) base) (·.readData) = some 0x30#32 := by decide
/-- Vector S2: the drain start. -/
theorem test_drain_start : txView (tick true w1Starting) = ⟨false, 8#16, 1#16, 2499#32, 2479#32, false⟩ := by decide
/-- Vector S2: the early firing waits. -/
theorem test_early_firing : (tick true w1Firing).txWait = true := by decide
/-- Vector S2: the end of run 0. -/
theorem test_run_end : txView (tick true w1RunEnd) = ⟨true, 8#16, 2#16, 2707#32, 2687#32, false⟩ := by decide
/-- Vector S2: drain complete. -/
theorem test_drain_complete : txView (tick true w1LastEnd) = ⟨true, 0#16, 0#16, 6867#32, 9158#32, false⟩ := by decide
/-- Vectors X1 and W3: 2290 is no boundary, 2291 is. -/
theorem test_boundary : (tick false { base with rxElapsed := 2289#12 }).rxCapt = false
    ∧ (tick false { base with rxElapsed := 2290#12 }).rxCapt = true := by decide
/-- R163: the published length counts the cap. -/
theorem test_finalize : ((tick false (capturing 2291#12)).rxLen, (tick false (capturing 2291#12)).rxBuf.take 3)
    = (3#16, [208#16, 208#16, 2291#16]) := by decide
theorem test_first_step_after_reset : get (step (State.reset.withFetchWord 32 0xF)) (·.result.code)
    = some .illegalOp := rfl

/-! ### Witnesses: for each statement with hypotheses, values that meet them together -/

theorem witness_ReservedOpcodesChangeResultAlone : 9 ≤ (0x9#32).toNat % 16 ∧ 9 ≤ (0xF#32).toNat % 16 := by decide
theorem witness_RunsFromFrameWritesTheMaximalRuns : (withArg 0x7E2#32).runv.length = 16 := by decide
theorem witness_FrameFromRunsExpandsTheRuns :
    [2, 1, 7] = ((withRuns [2#16, 1#16, 7#16]).runv.take 3).map BitVec.toNat
      ∧ (([2, 1, 7].take 2).sum ≤ 9 ∧ 9 < ([2, 1, 7].take 3).sum) ∧ [2, 1, 7].sum ≤ 10
      ∧ [] = (base.runv.take base.runc.toNat).map BitVec.toNat := by decide
theorem witness_ValidMessage : ValidMessage 12 w1 := by simp [ValidMessage, w1]
theorem witness_EncodeMessageAcceptsAValidMessage : Safe w1Ready ∧ w1Ready.txLen = 0#16
    ∧ w1Ready.payOut = w1 ++ 0xFFFF#16 :: List.replicate 10 0#16 ∧ ValidMessage 12 w1
    ∧ w1Runs = frameDurations (messageFrames w1) ∧ w1Runs.length ≤ 64 :=
  ⟨by decide, by decide, by decide, witness_ValidMessage, by decide, by decide⟩
theorem witness_EncodeMessageRefusesInOrder_busy : w1Sent.payOut.length = 13 ∧ w1Sent.txLen ≠ 0#16 := by
  decide
theorem witness_EncodeMessageRefusesInOrder_noTerminator :
    base.payOut.length = 13 ∧ base.txLen = 0#16 ∧ ∀ e ∈ base.payOut, e ≠ 0xFFFF#16 :=
  ⟨by decide, by decide, by simp [State.resetWith]⟩
theorem witness_EncodeMessageRefusesInOrder_empty :
    (withPayOut [0xFFFF#16]).payOut = [] ++ 0xFFFF#16 :: List.replicate 12 0#16 ∧ ¬ ValidMessage 12 [] :=
  ⟨by decide, by simp⟩
theorem witness_EncodeMessageRefusesInOrder_range :
    (withPayOut [0x1F1#16, 0x200#16, 0xFFFF#16]).payOut
        = [0x1F1#16, 0x200#16] ++ 0xFFFF#16 :: List.replicate 10 0#16
      ∧ (∀ p ∈ [0x1F1#16, 0x200#16], p ≠ 0xFFFF#16) ∧ ¬ ValidMessage 12 [0x1F1#16, 0x200#16] :=
  ⟨by decide, by simp, by simp⟩
/-- Vector M7. -/
abbrev m7 : List Entry := 0x155#16 :: List.replicate 6 0x055#16
theorem witness_EncodeMessageRefusesInOrder_tooLong :
    (withPayOut (m7 ++ [0xFFFF#16])).payOut = m7 ++ 0xFFFF#16 :: List.replicate 5 0#16
      ∧ (∀ p ∈ m7, p ≠ 0xFFFF#16) ∧ ValidMessage 12 m7 ∧ 64 < (frameDurations (messageFrames m7)).length :=
  ⟨by decide, by simp [m7], by simp [ValidMessage, m7], by decide⟩
theorem witness_DecodeMessageDeliversTheDatagram : base.rxLen = 0#16 ∧ (withRxBuf w1Captured).rxLen ≠ 0#16
    ∧ (withRxBuf w1Captured).payIn.length = 13 := by
  decide +kernel
theorem witness_CompletionCodesBelongToTheirCommands :
    ∃ t, exec .encodeMessage base = .next t ∧ t.result.code = .malformed := ⟨_, rfl, rfl⟩
theorem witness_CompletionCodes_nodata : ∃ t, exec .decodeMessage base = .next t ∧ t.result.code = .nodata :=
  ⟨_, rfl, rfl⟩
theorem witness_CompletionCodes_valid :
    ∃ t, exec .payloadFromFrame (withArg 0x400#32) = .next t ∧ t.result.valid = true := ⟨_, rfl, rfl⟩
theorem witness_CompletionCodes_corrupt :
    ∃ t, exec .decodeMessage (withRxBuf [2291#16]) = .next t ∧ t.result.corrupt = true := ⟨_, rfl, rfl⟩
theorem witness_RunsAndFramesInvertWhenStartBitIsZero : (withArg 0x7E2#32).runv.length = 16
    ∧ (withArg 0x7E2#32).arg.getLsbD 0 = false ∧ (withArg 0x001#32).arg.getLsbD 0 = true := by decide
theorem witness_PayloadComesBackFromItsFrame : (withArg 0x1FF#32).arg.toNat ≤ 0x1FF := by decide
theorem witness_ValidFramesAreTheFramedPayloads : (withArg 0x7FF#32).arg.toNat < 2 ^ 11 := by decide
theorem witness_ValidFrameHasEvenRuns :
    (withArg 0x400#32).arg.getLsbD 0 = false ∧ (withArg 0x400#32).arg.getLsbD 10 = true := by decide
/-- Vector M11. -/
abbrev jittered : State :=
  withRxBuf [230#16, 190#16, 600#16, 1270#16, 395#16, 220#16, 1440#16, 2291#16]
theorem witness_JitterWithinHalfABitDecodesAlike : jittered.rxLen ≠ 0#16
    ∧ [1, 1, 3, 6, 2, 1, 7, 11].length = jittered.rxLen.toNat
    ∧ [1, 1, 3, 6, 2, 1, 7, 11].length ≤ jittered.rxBuf.length
    ∧ ∀ j < [1, 1, 3, 6, 2, 1, 7, 11].length, [1, 1, 3, 6, 2, 1, 7, 11].getD j 0 < 315
        ∧ 208 * [1, 1, 3, 6, 2, 1, 7, 11].getD j 0 ≤ (readEntry jittered.rxBuf j).toNat + 104
        ∧ (readEntry jittered.rxBuf j).toNat ≤ 208 * [1, 1, 3, 6, 2, 1, 7, 11].getD j 0 + 103 := by decide
theorem witness_EncodedMessageDecodesBack : Safe w1Ready ∧ w1Ready.txLen = 0#16
    ∧ w1Ready.payOut = w1 ++ 0xFFFF#16 :: List.replicate 10 0#16 ∧ ValidMessage 12 w1
    ∧ (frameDurations (messageFrames w1)).length ≤ 64 ∧ Safe (withRxBuf w1Captured)
    ∧ (withRxBuf w1Captured).params = w1Ready.params ∧ (withRxBuf w1Captured).rxLen = w1Sent.txLen
    ∧ ∀ j < w1Sent.txLen.toNat, readEntry (withRxBuf w1Captured).rxBuf j = readEntry w1Sent.txBuf j
        ∨ (j + 1 = w1Sent.txLen.toNat ∧ readEntry (withRxBuf w1Captured).rxBuf j = 2291#16) :=
  ⟨by decide, by decide, by decide, witness_ValidMessage, by decide, by decide, by decide, by decide, by decide⟩
/-- The frames of W1, the second with its start bit set and its durations. -/
abbrev damaged : List Entry := frameDurations ([0x7E2#11, 0x404#11].set 1 (0x404#11 ||| 0x001#11))
theorem witness_DamagedFrameIsReported : Safe (withRxBuf damaged)
    ∧ (∀ f ∈ [0x7E2#11, 0x404#11], f.getLsbD 0 = false ∧ f.getLsbD 10 = true)
    ∧ (withRxBuf damaged).rxLen.toNat = damaged.length
    ∧ ∀ j < damaged.length, readEntry (withRxBuf damaged).rxBuf j = readEntry damaged j := by decide
/-- The first frame of W1 with its stop bit cleared, and the last duration replaced by the cap. -/
abbrev damagedStop : List Entry := frameDurations ([0x7E2#11, 0x404#11].set 0 (0x7E2#11 &&& 0x3FF#11))
abbrev damagedStopCaptured : List Entry := damagedStop.dropLast ++ [2291#16]
theorem witness_DamagedFrameIsReported_stop : Safe (withRxBuf damagedStopCaptured)
    ∧ (withRxBuf damagedStopCaptured).rxLen.toNat = damagedStop.length
    ∧ ∀ j < damagedStop.length, readEntry (withRxBuf damagedStopCaptured).rxBuf j = readEntry damagedStop j
        ∨ (j + 1 = damagedStop.length ∧ readEntry (withRxBuf damagedStopCaptured).rxBuf j = 2291#16) := by decide
/-- Vector M9. -/
abbrev m9 : State :=
  withRxBuf [208#16, 208#16, 624#16, 1456#16, 208#16, 208#16, 1456#16, 2291#16]
theorem witness_DamagedFrameIsReported_line : Safe m9 ∧ m9.rxLen = 8#16 ∧ 2 ≤ m9.params.msgCap
    ∧ m9.rxBuf.take 8 = [208#16, 208#16, 624#16, 1456#16, 208#16, 208#16, 1456#16, 2291#16] := by decide
theorem witness_WireCarriesTheFramesBits : Safe w1Ready ∧ w1Ready.txLen = 0#16
    ∧ w1Ready.payOut = w1 ++ 0xFFFF#16 :: List.replicate 10 0#16 ∧ ValidMessage 12 w1
    ∧ (frameDurations (messageFrames w1)).length ≤ 64 :=
  ⟨by decide, by decide, by decide, witness_ValidMessage, by decide⟩
theorem witness_CommandWordsDecodeByOpAlone : (Instr.reservedAB 0xB#4).wellFormed = true
    ∧ (Instr.reservedCF 0xC#4).wellFormed = true ∧ Instr.nop.wellFormed = true := by decide
theorem witness_RegisterOffsetsDecodeBack : testParams.wellFormed = true
    ∧ implemented testParams (.payIn 12) = true ∧ implemented testParams (.txBuf 63) = true := by decide
theorem witness_RegisterOffsetsDecodeBack_ok : decodeAccess testParams 4 0x330#12 = .ok (.payIn 12) := by
  decide +kernel
theorem witness_StepRunsTheDecodedCommand :
    { base with inputs := [.hostWrite 4 0x000#12 7#32] }.inputs = .hostWrite 4 0x000#12 7#32 :: []
      ∧ 0xFFFFFFFF < 2 ^ 32 := by decide
theorem witness_HostReadHasNoSideEffect : decodeAccess base.params 4 0x014#12 = .ok .status := by
  decide +kernel
theorem witness_HostReadReturnsTheElement : testParams.wellFormed = true ∧ base.runv[15]? = some 0#16
    ∧ base.payOut[12]? = some 0#16 ∧ base.txBuf[63]? = some 0#16 ∧ base.rxBuf[63]? = some 0#16
    ∧ base.payIn[12]? = some 0#16 ∧ w1Sent.txBuf[7]? = some 208#16 := by decide
theorem witness_AccessErrorExactlyWhenTheMapDoesNotAdmit :
    NotAdmitted testParams 2 0x004#12 ∧ NotAdmitted testParams 4 0x006#12 ∧ NotAdmitted testParams 4 0x038#12
      ∧ NotAdmitted testParams 4 0x03C#12 ∧ NotAdmitted testParams 4 0x0B4#12 ∧ NotAdmitted testParams 4 0x380#12
      ∧ NotAdmitted testParams 4 0xFFC#12 ∧ NotAdmitted ⟨4, 1, 0⟩ 4 0x110#12 ∧ NotAdmitted ⟨4, 1, 0⟩ 4 0x210#12
      ∧ NotAdmitted ⟨4, 1, 0⟩ 4 0x308#12 :=
  ⟨by decide, by decide, by decide, by decide, by decide, by decide, by decide, by decide, by decide, by decide⟩
theorem witness_AccessError_admitted : ¬ NotAdmitted testParams 4 0x034#12 ∧ ¬ NotAdmitted testParams 4 0x0B0#12
    ∧ ¬ NotAdmitted ⟨4, 1, 0⟩ 4 0x10C#12 ∧ ¬ NotAdmitted testParams 4 0x000#12 := by
  decide +kernel
theorem witness_OperandRegistersReadBackWhatWasWritten : Safe base ∧ implemented testParams .arg = true
    ∧ implemented testParams .runc = true ∧ implemented testParams (.runv 15) = true
    ∧ implemented testParams (.payOut 12) = true ∧ implemented testParams (.payIn 0) = true := by decide
theorem witness_WritesToReadOnlyRegistersAreIgnored : base.params.wellFormed = true
    ∧ implemented base.params (.txBuf 63) = true ∧ HostReg.txBuf 63 ≠ .cmd ∧ HostReg.txBuf 63 ≠ .arg
    ∧ HostReg.txBuf 63 ≠ .runc := by decide
theorem witness_TrySendAnswersWhetherTheMessageWasTaken : Safe base ∧ w1.length ≤ 12
    ∧ w1 = w1.takeWhile (fun p => p != 0xFFFF#16) ∧ base.txLen = 0#16 ∧ ValidMessage 12 w1
    ∧ (frameDurations (messageFrames w1)).length ≤ 64 :=
  ⟨by decide, by decide, by decide, by decide, witness_ValidMessage, by decide⟩
theorem witness_TrySend_busy : Safe w1Sent ∧ w1Sent.txLen ≠ 0#16 := by decide
theorem witness_TrySend_refused : Safe base ∧ [0x002#16].length ≤ 12
    ∧ [0x002#16] = [0x002#16].takeWhile (fun p => p != 0xFFFF#16) ∧ ¬ ValidMessage 12 [0x002#16] :=
  ⟨by decide, by decide, by decide, by simp [ValidMessage]⟩
theorem witness_TrySend_tooLong : m7.length ≤ 12 ∧ m7 = m7.takeWhile (fun p => p != 0xFFFF#16)
    ∧ 64 < (frameDurations (messageFrames m7)).length := by decide
/-- R107: a busy TRY_SEND is not accepted. -/
theorem test_trySend_busy : accepted (afterActs (trySend w1) w1Sent).readData = false := by decide +kernel
theorem witness_EnginesDoNotInterfere : txView base = txView (capturing 5#12) ∧ rxView base = rxView w1Firing
    ∧ base.time = (capturing 5#12).time ∧ base.txBuf = (capturing 5#12).txBuf := by decide
theorem witness_EarlyFiringWaitsForTheRunEnd_noFiring : base.txWait = false ∧ base.time + 1#32 ≠ base.txCmp := by
  decide
theorem witness_EarlyFiringWaitsForTheRunEnd_waiting : w1Waiting.txWait = true
    ∧ (w1Waiting.time + 1#32 - w1Waiting.txNext).toInt < 0 := by decide
theorem witness_EarlyFiringWaitsForTheRunEnd_firing : w1Firing.txWait = false
    ∧ w1Firing.time + 1#32 = w1Firing.txCmp ∧ w1Firing.txLen ≠ 0#16 ∧ w1Firing.txCur ≠ 0#16
    ∧ (w1Firing.time + 1#32 - w1Firing.txNext).toInt < 0 := by decide
theorem witness_IdleFiringIsAHeartbeat : { base with time := 2290#32 }.txWait = false
    ∧ { base with time := 2290#32 }.time + 1#32 = base.txCmp ∧ base.txLen = 0#16 := by decide
theorem witness_IdleFiringIsAHeartbeat_noEdge : Safe { base with time := 2290#32 }
    ∧ IdleLevel { base with time := 2290#32 } := by decide
theorem witness_FiringStartsTheDrain : w1Starting.txWait = false ∧ w1Starting.time + 1#32 = w1Starting.txCmp
    ∧ w1Starting.txLen ≠ 0#16 ∧ w1Starting.txCur = 0#16 := by decide
theorem witness_RunEndStartsTheNextRun : w1RunEnd.txCur.toNat = 1 ∧ 1 < w1RunEnd.txLen.toNat
    ∧ w1RunEnd.txWait = true ∧ 0 ≤ (w1RunEnd.time + 1#32 - w1RunEnd.txNext).toInt := by decide
/-- With MARGIN_US = 0 the firing comes at the run's end, without a wait (vector S3). -/
abbrev w1NoMargin : State := { w1Firing with params := ⟨64, 12, 0⟩, time := 2498#32, txCmp := 2499#32 }
theorem witness_RunEndStartsTheNextRun_noWait : w1NoMargin.txCur.toNat = 1 ∧ 1 < w1NoMargin.txLen.toNat
    ∧ w1NoMargin.time + 1#32 = w1NoMargin.txCmp
    ∧ 0 ≤ (w1NoMargin.time + 1#32 - w1NoMargin.txNext).toInt := by decide
theorem witness_LastRunEndCompletesTheDrain : w1LastEnd.txLen ≠ 0#16 ∧ w1LastEnd.txCur = w1LastEnd.txLen
    ∧ w1LastEnd.txWait = true ∧ 0 ≤ (w1LastEnd.time + 1#32 - w1LastEnd.txNext).toInt := by decide
/-- Run 0 just started (vector S2). -/
abbrev w1Run0 : State := { w1Firing with time := 2291#32 }
theorem witness_WaitLastsTheMargin : w1Run0.txWait = false ∧ w1Run0.txLen ≠ 0#16 ∧ w1Run0.txCur ≠ 0#16
    ∧ 208 < 2 ^ 16 ∧ w1Run0.txNext = w1Run0.time + BitVec.ofNat 32 208
    ∧ w1Run0.txCmp = w1Run0.time + BitVec.ofNat 32 (max (208 - w1Run0.params.marginUs) 1)
    ∧ (List.replicate 188 true).length < 208 := by
  decide +kernel
theorem witness_OutputFollowsTheRunTimeline : w1Starting.txWait = false
    ∧ w1Starting.time + 1#32 = w1Starting.txCmp ∧ w1Starting.txLen ≠ 0#16 ∧ w1Starting.txCur = 0#16
    ∧ (∀ j < w1Starting.txLen.toNat, 1 ≤ runTicks w1Starting j)
    ∧ runStart w1Starting 1 < 209 ∧ 209 ≤ runStart w1Starting 2 ∧ runStart w1Starting 8 < 4577 := by decide
theorem witness_MarginDoesNotChangeTheWire : w1Sent.txWait = false ∧ w1Sent.txCur = 0#16
    ∧ ∀ j < w1Sent.txLen.toNat, 1 ≤ runTicks w1Sent j := by decide
theorem witness_AcceptedMessageDrainsInTime : Safe w1Sent ∧ TxTimed w1Sent ∧ w1Sent.txLen ≠ 0#16
    ∧ w1Sent.txCur = 0#16 ∧ 2291 + runStart w1Sent w1Sent.txLen.toNat = 6867 := by decide
theorem witness_BoundaryEdgePublishesTheDatagram : 2291 ≤ (capturing 2290#12).rxElapsed.toNat + 1
    ∧ (capturing 2290#12).rxCapt = true := by decide
theorem witness_BoundaryEdgeBeginsOrDrops : 2291 ≤ { base with rxElapsed := 2290#12 }.rxElapsed.toNat + 1
    ∧ base.rxCapt = false ∧ base.rxLen = 0#16 ∧ (withRxBuf w1Captured).rxCapt = false
    ∧ (withRxBuf w1Captured).rxLen ≠ 0#16 := by decide
theorem witness_IntraEdgeStoresTheRun : (capturing 2289#12).rxElapsed.toNat + 1 < 2291
    ∧ (capturing 2289#12).rxCapt = true
    ∧ (capturing 2289#12).rxCur.toNat < (capturing 2289#12).params.runbufCap - 1 := by decide
/-- Vector X7: RUNBUF_CAP = 4, three runs stored. -/
abbrev full : State :=
  { State.resetWith ⟨4, 12, 20⟩ with
    rxBuf := [208#16, 208#16, 624#16, 0#16], rxCur := 3#16, rxCapt := true, rxElapsed := 1247#12 }
theorem witness_EdgeAtCapacityTruncatesTheDatagram : full.rxElapsed.toNat + 1 < 2291 ∧ full.rxCapt = true
    ∧ full.rxCur.toNat = full.params.runbufCap - 1 := by decide
theorem witness_IntraEdgeWhileNotCapturingIsIgnored : base.rxElapsed.toNat + 1 < 2291 ∧ base.rxCapt = false := by
  decide
theorem witness_EdgeIntervalIsMeasuredAndClamped : base.rxElapsed = 0#12 ∧ 1 ≤ 5000 ∧ 2291 ≤ 5000 := by decide
theorem witness_ResetLeavesTheSpecifiedValues : ∃ t, act .reset w1Firing = .next t := ⟨_, rfl⟩
theorem witness_ResetSatisfiesTheInvariants : testParams.wellFormed = true := by decide
/-- A step in the middle of a drain, and one while capturing. -/
abbrev w1Next : State := { w1Firing with inputs := [.tick true] }
abbrev captNext : State := { capturing 300#12 with inputs := [.tick false] }
theorem witness_EveryStepKeepsTheEnginesSafe : Safe w1Next ∧ ∃ t, step w1Next = .next t := ⟨by decide, _, rfl⟩
theorem witness_EveryStepKeepsTheSchedulerTimed : Safe w1Next ∧ TxTimed w1Next ∧ ∃ t, step w1Next = .next t :=
  ⟨by decide, by decide, _, rfl⟩
theorem witness_EveryStepKeepsTheIdleLevel : IdleLevel captNext ∧ captNext.txCur = 0#16
    ∧ ∃ t, step captNext = .next t := ⟨by decide, by decide, _, rfl⟩
theorem witness_EveryStepKeepsTheCapturedRuns : Safe captNext ∧ RxContents captNext ∧ ∃ t, step captNext = .next t :=
  ⟨by decide, by decide, _, rfl⟩
theorem witness_OutboundHandshakeIsKept : Safe w1Next ∧ (∃ t, step w1Next = .next t)
    ∧ (takeInput w1Next).1 ≠ .reset ∧ w1Next.txLen ≠ 0#16 := ⟨by decide, ⟨_, rfl⟩, by decide, by decide⟩
abbrev w1Last : State := { w1LastEnd with inputs := [.tick true] }
theorem witness_OutboundHandshakeIsKept_lastEnd : Safe w1Last ∧ w1Last.txLen ≠ 0#16
    ∧ get (step w1Last) (·.txLen) = some 0#16 := by decide
abbrev w1Encode : State := { w1Ready with inputs := [cmd .encodeMessage] }
theorem witness_OutboundHandshakeIsKept_accept : Safe w1Encode ∧ w1Encode.txLen = 0#16
    ∧ get (step w1Encode) (·.txLen) = some 8#16 := by decide
abbrev w1Decode : State := { withRxBuf w1Captured with inputs := [cmd .decodeMessage] }
theorem witness_InboundHandshakeIsKept : Safe w1Decode ∧ (∃ t, step w1Decode = .next t)
    ∧ (takeInput w1Decode).1 ≠ .reset ∧ w1Decode.rxLen ≠ 0#16 := ⟨by decide, ⟨_, rfl⟩, by decide, by decide⟩
abbrev captPublish : State := { capturing 2291#12 with inputs := [.tick false] }
theorem witness_InboundHandshakeIsKept_publish : Safe captPublish ∧ captPublish.rxLen = 0#16
    ∧ get (step captPublish) (·.rxLen) = some 3#16 := by decide

end Sys2Proof.Tests
end

/-! PROOFS. The parameters and the register map (R8, R61, R204): what each function of the decoder answers, and that
offsets and implemented registers correspond one to one. -/

namespace Sys2Proof.Machine

theorem params_wellFormed_iff (p : Config.Params) :
    p.wellFormed = true ↔
      2 ≤ p.runbufCap ∧ p.runbufCap ≤ 64 ∧ 1 ≤ p.msgCap ∧ p.msgCap ≤ 31 ∧ p.marginUs ≤ 207 := by
  simp [Config.Params.wellFormed, and_assoc]

/-- With the default capacities the free margin is admitted as well (R8). -/
theorem defaultParams_wellFormed : Config.defaultParams.wellFormed = true := by
  have hmargin := Config.marginUs.isLt
  rw [params_wellFormed_iff]
  refine ⟨?_, ?_, ?_, ?_, Nat.le_of_lt_succ hmargin⟩ <;> decide

theorem entryReg_eq_ok_iff (count k : Nat) (mk : Nat → HostReg) (r : HostReg) :
    entryReg count k mk = .ok r ↔ k < count ∧ mk k = r := by
  unfold entryReg
  split <;> simp_all

theorem decodeAccess_eq_ok_iff (p : Config.Params) (size : Nat) (addr : Offset) (r : HostReg) :
    decodeAccess p size addr = .ok r ↔
      size = 4 ∧ addr.toNat % 4 = 0 ∧ decodeOffset p addr.toNat = .ok r := by
  unfold decodeAccess
  split
  · simp_all
  · split <;> simp_all

/-- A scalar register is implemented for all parameters, and its offset is the one it was found at. -/
theorem regOffset_of_scalarReg (p : Config.Params) (a : Nat) (r : HostReg) (h : scalarReg a = .ok r) :
    implemented p r = true ∧ regOffset r = a := by
  unfold scalarReg at h
  split at h <;> cases h <;> exact ⟨rfl, rfl⟩

/-- The window of a register's array bounds its entries for admitted parameters, so every offset is below 0x380. -/
theorem regOffset_lt (p : Config.Params) (hp : p.wellFormed = true) (r : HostReg)
    (hr : implemented p r = true) : regOffset r < 0x380 := by
  obtain ⟨_, _, _, _, _⟩ := (params_wellFormed_iff p).mp hp
  cases r <;> simp [regOffset, implemented, Config.runvCap] at hr ⊢ <;> omega

theorem regOffset_mod_four (r : HostReg) : regOffset r % 4 = 0 := by
  cases r <;> simp [regOffset]

theorem toNat_encodeOffset (p : Config.Params) (hp : p.wellFormed = true) (r : HostReg)
    (hr : implemented p r = true) : (encodeOffset r).toNat = regOffset r := by
  have hlt := regOffset_lt p hp r hr
  rw [encodeOffset, BitVec.toNat_ofNat, Nat.mod_eq_of_lt (by omega)]

section windows
variable (p : Config.Params) (k : Nat)

/-! The five array windows of R61: entry `k` of a window is found there, and nowhere before. -/

theorem decodeOffset_runv (hk : k < 16) :
    decodeOffset p (0x040 + 4 * k) = entryReg Config.runvCap k .runv := by
  rw [decodeOffset, if_neg (by omega), if_pos (by omega), show (0x040 + 4 * k - 0x040) / 4 = k by omega]

theorem decodeOffset_payOut (hk : k < 32) :
    decodeOffset p (0x080 + 4 * k) = entryReg (p.msgCap + 1) k .payOut := by
  rw [decodeOffset, if_neg (by omega), if_neg (by omega), if_pos (by omega),
    show (0x080 + 4 * k - 0x080) / 4 = k by omega]

theorem decodeOffset_txBuf (hk : k < 64) :
    decodeOffset p (0x100 + 4 * k) = entryReg p.runbufCap k .txBuf := by
  rw [decodeOffset, if_neg (by omega), if_neg (by omega), if_neg (by omega), if_pos (by omega),
    show (0x100 + 4 * k - 0x100) / 4 = k by omega]

theorem decodeOffset_rxBuf (hk : k < 64) :
    decodeOffset p (0x200 + 4 * k) = entryReg p.runbufCap k .rxBuf := by
  rw [decodeOffset, if_neg (by omega), if_neg (by omega), if_neg (by omega), if_neg (by omega), if_pos (by omega),
    show (0x200 + 4 * k - 0x200) / 4 = k by omega]

theorem decodeOffset_payIn (hk : k < 32) :
    decodeOffset p (0x300 + 4 * k) = entryReg (p.msgCap + 1) k .payIn := by
  rw [decodeOffset, if_neg (by omega), if_neg (by omega), if_neg (by omega), if_neg (by omega), if_neg (by omega),
    if_pos (by omega), show (0x300 + 4 * k - 0x300) / 4 = k by omega]

end windows

/-- The admitted capacities fit the windows, so each implemented register is found at its offset. -/
theorem decodeOffset_regOffset (p : Config.Params) (hp : p.wellFormed = true) (r : HostReg)
    (hr : implemented p r = true) : decodeOffset p (regOffset r) = .ok r := by
  obtain ⟨_, hcap, _, hmsg, _⟩ := (params_wellFormed_iff p).mp hp
  cases r with
  | runv k =>
    have hk : k < 16 := of_decide_eq_true hr
    exact (decodeOffset_runv p k hk).trans (if_pos hk)
  | payOut k =>
    have hk : k < p.msgCap + 1 := of_decide_eq_true hr
    exact (decodeOffset_payOut p k (by omega)).trans (if_pos hk)
  | txBuf k =>
    have hk : k < p.runbufCap := of_decide_eq_true hr
    exact (decodeOffset_txBuf p k (by omega)).trans (if_pos hk)
  | rxBuf k =>
    have hk : k < p.runbufCap := of_decide_eq_true hr
    exact (decodeOffset_rxBuf p k (by omega)).trans (if_pos hk)
  | payIn k =>
    have hk : k < p.msgCap + 1 := of_decide_eq_true hr
    exact (decodeOffset_payIn p k (by omega)).trans (if_pos hk)
  | _ => rfl

/-- What the register map finds at an aligned offset is an implemented register, at that offset. -/
theorem regOffset_of_decodeOffset (p : Config.Params) (a : Nat) (r : HostReg) (ha : a % 4 = 0)
    (h : decodeOffset p a = .ok r) : implemented p r = true ∧ regOffset r = a := by
  unfold decodeOffset at h
  split at h
  · exact regOffset_of_scalarReg p a r h
  repeat' split at h
  case isFalse => cases h
  all_goals
    obtain ⟨hk, rfl⟩ := (entryReg_eq_ok_iff _ _ _ _).mp h
    exact ⟨by simpa [implemented] using hk, by simp only [regOffset]; omega⟩

theorem decodeAccess_encodeOffset (p : Config.Params) (hp : p.wellFormed = true) (r : HostReg)
    (hr : implemented p r = true) : decodeAccess p 4 (encodeOffset r) = .ok r := by
  rw [decodeAccess_eq_ok_iff, toNat_encodeOffset p hp r hr]
  exact ⟨rfl, regOffset_mod_four r, decodeOffset_regOffset p hp r hr⟩

theorem encodeOffset_of_decodeAccess (p : Config.Params) (size : Nat) (addr : Offset) (r : HostReg)
    (h : decodeAccess p size addr = .ok r) :
    size = 4 ∧ implemented p r = true ∧ encodeOffset r = addr := by
  obtain ⟨hsize, halign, hoff⟩ := (decodeAccess_eq_ok_iff p size addr r).mp h
  obtain ⟨himpl, heq⟩ := regOffset_of_decodeOffset p addr.toNat r halign hoff
  exact ⟨hsize, himpl, by rw [encodeOffset, heq, BitVec.ofNat_toNat, BitVec.setWidth_eq]⟩

/-- Settles O23: `decodeOffset` inverts `regOffset` window by window, in both directions. -/
theorem registerOffsetsDecodeBack : Obligations.RegisterOffsetsDecodeBack := fun p hp =>
  ⟨decodeAccess_encodeOffset p hp, encodeOffset_of_decodeAccess p⟩

end Sys2Proof.Machine

/-! PROOFS. Host reads (R61 to R63): a read of an implemented register answers that register's value, and the bits of
the STATUS word. -/

namespace Sys2Proof.Machine

/-- A read at an implemented register's offset puts its value on the port and changes nothing else (R63, R67). -/
theorem act_rd (s : State) (hp : s.params.wellFormed = true) (r : HostReg)
    (hr : implemented s.params r = true) : act (rd r) s = .next { s with readData := readReg s r } := by
  simp [act, rd, hostRead, decodeAccess_encodeOffset s.params hp r hr]

theorem readEntry_of_getElem? (a : List Entry) (k : Nat) (e : Entry) (h : a[k]? = some e) :
    readEntry a k = e := by
  simp [readEntry, List.getD_eq_getElem?_getD, h]

/-- A read of an implemented array entry answers the entry, zero-extended. -/
theorem act_rd_entry (s : State) (hp : s.params.wellFormed = true) (r : HostReg) (a : List Entry) (k : Nat)
    (e : Entry) (hr : implemented s.params r = true) (hval : readReg s r = (readEntry a k).setWidth 32)
    (he : a[k]? = some e) : act (rd r) s = .next { s with readData := e.setWidth 32 } := by
  rw [act_rd s hp r hr, hval, readEntry_of_getElem? a k e he]

/-- Settles O59: every offset of the map is `encodeOffset` of the register the map puts there. -/
theorem hostReadReturnsTheElement : Obligations.HostReadReturnsTheElement := by
  intro s hp
  refine ⟨act_rd s hp .cmd rfl, rfl, act_rd s hp .arg rfl, act_rd s hp .res rfl, act_rd s hp .runc rfl, rfl,
    act_rd s hp .txLen rfl, act_rd s hp .rxLen rfl, act_rd s hp .time rfl, act_rd s hp .txCur rfl,
    act_rd s hp .rxCur rfl, act_rd s hp .txNext rfl, act_rd s hp .txCmp rfl, act_rd s hp .rxElapsed rfl,
    fun k e => ⟨fun hk => ?_, fun hk => ?_, fun hk => ?_, fun hk => ?_, fun hk => ?_⟩⟩
  · exact act_rd_entry s hp (.runv k) s.runv k e (by simpa [implemented] using hk) rfl
  · exact act_rd_entry s hp (.payOut k) s.payOut k e (by simpa [implemented] using Nat.lt_succ_of_le hk) rfl
  · exact act_rd_entry s hp (.txBuf k) s.txBuf k e (by simpa [implemented] using hk) rfl
  · exact act_rd_entry s hp (.rxBuf k) s.rxBuf k e (by simpa [implemented] using hk) rfl
  · exact act_rd_entry s hp (.payIn k) s.payIn k e (by simpa [implemented] using Nat.lt_succ_of_le hk) rfl

/-- STATUS is mapped for all parameters, admitted or not. -/
theorem act_rd_status (s : State) : act (rd .status) s = .next { s with readData := statusWord s } := rfl

section statusWord
variable (s : State)

/-- The layout of R62: seven flags from bit 0 up, and 0 in bits 31:7. -/
theorem getLsbD_statusWord (i : Nat) : (statusWord s).getLsbD i =
    [txBusy s, rxFull s, s.rxCapt, s.txWait, s.busOut, s.rxPrev, s.rxTrunc].getD i false := by
  simp only [statusWord, BitVec.getLsbD_append, BitVec.getLsbD_ofBool, BitVec.getLsbD_zero]
  match i with
  | 0 | 1 | 2 | 3 | 4 | 5 | 6 => rfl
  | n + 7 => simp

theorem txBusy_iff : txBusy s = true ↔ s.txLen ≠ 0#16 := bne_iff_ne

theorem rxFull_iff : rxFull s = true ↔ s.rxLen ≠ 0#16 := bne_iff_ne

theorem isSendBufferFree_statusWord : isSendBufferFree (statusWord s) = !txBusy s := by
  rw [isSendBufferFree, getLsbD_statusWord]; rfl

theorem hasReceivedData_statusWord : hasReceivedData (statusWord s) = rxFull s := by
  rw [hasReceivedData, getLsbD_statusWord]; rfl

end statusWord

/-- Settles O30: the word read is `statusWord`, taken bit by bit. -/
theorem statusReadsTheEngines : Obligations.StatusReadsTheEngines := by
  intro s
  have hbit := getLsbD_statusWord s
  refine ⟨statusWord s, act_rd_status s, ?_, ?_, hbit 2, hbit 3, hbit 4, hbit 5, hbit 6, fun i hi => ?_, ?_, ?_⟩
  · rw [hbit 0]; exact txBusy_iff s
  · rw [hbit 1]; exact rxFull_iff s
  · rw [hbit i]; exact List.getD_eq_default _ _ hi
  · simp [isSendBufferFree_statusWord, txBusy]
  · rw [hasReceivedData_statusWord, rxFull_iff]

end Sys2Proof.Machine

/-! PROOFS. Reset (R60, R231): the values it leaves, and that they meet every invariant. -/

namespace Sys2Proof.Machine

@[simp] theorem length_freeArray (n : Nat) (a : ArrayName) (count : Nat) : (freeArray n a count).length = count := by
  simp [freeArray]

theorem resetWith_sized (p : Config.Params) : Sized (State.resetWith p) := by
  simp [Sized, State.resetWith]

theorem resetInput_sized (s : State) : Sized (resetInput s) := by
  simp [Sized, resetInput, State.resetWith]

/-- Settles O52: every element but the arrays is a literal of `resetWith`; the arrays have their sizes. -/
theorem resetLeavesTheSpecifiedValues : Obligations.ResetLeavesTheSpecifiedValues := by
  rintro s t (rfl | h)
  · exact ⟨rfl, rfl, rfl, rfl, rfl, rfl, rfl, rfl, rfl, rfl, rfl, rfl, rfl, rfl, rfl, rfl, rfl, resetWith_sized _⟩
  · obtain rfl : resetInput s = t := by simpa [act] using h
    exact ⟨rfl, rfl, rfl, rfl, rfl, rfl, rfl, rfl, rfl, rfl, rfl, rfl, rfl, rfl, rfl, rfl, rfl, resetInput_sized s⟩

/-- With both buffers empty, both engines idle and the counts 0, a sized state is safe. -/
theorem safe_of_idle (s : State) (hp : s.params.wellFormed = true) (hsized : Sized s) (htxLen : s.txLen = 0#16)
    (htxCur : s.txCur = 0#16) (htxWait : s.txWait = false) (hrxCapt : s.rxCapt = false) (hrxCur : s.rxCur = 0#16)
    (hrxLen : s.rxLen = 0#16) (hrunc : s.runc = 0#5) (hrxElapsed : s.rxElapsed = 0#12) : Safe s := by
  refine ⟨hp, hsized, ?_, ?_, ?_⟩
  · simp [TxInvariant, htxLen, htxCur, htxWait]
  · simp [RxInvariant, hrxCapt, hrxCur, hrxLen]
  · simp [LegalCounts, hrunc, hrxElapsed]

theorem resetWith_safe (p : Config.Params) (hp : p.wellFormed = true) : Safe (State.resetWith p) :=
  safe_of_idle _ hp (resetWith_sized p) rfl rfl rfl rfl rfl rfl rfl rfl

theorem resetInput_safe (s : State) (hp : s.params.wellFormed = true) : Safe (resetInput s) :=
  safe_of_idle _ hp (resetInput_sized s) rfl rfl rfl rfl rfl rfl rfl rfl

/-- After reset nothing is queued and the first heartbeat is one message period ahead (R60). -/
theorem resetWith_txTimed (p : Config.Params) : TxTimed (State.resetWith p) := by
  simp [TxTimed, State.resetWith, Config.msgPeriodUs]

/-- After reset no datagram is held and none is being captured (R60). -/
theorem resetWith_rxContents (p : Config.Params) : RxContents (State.resetWith p) := by
  simp [RxContents, State.resetWith]

theorem resetWith_idleLevel (p : Config.Params) : IdleLevel (State.resetWith p) := fun _ => rfl

/-- Settles O53: `State.reset` is `resetWith` of the default parameters, which are admitted. -/
theorem resetSatisfiesTheInvariants : Obligations.ResetSatisfiesTheInvariants := by
  have hall (p : Config.Params) (hp : p.wellFormed = true) :
      Safe (State.resetWith p) ∧ TxTimed (State.resetWith p) ∧ RxContents (State.resetWith p)
        ∧ IdleLevel (State.resetWith p) :=
    ⟨resetWith_safe p hp, resetWith_txTimed p, resetWith_rxContents p, resetWith_idleLevel p⟩
  exact ⟨hall _ defaultParams_wellFormed, hall⟩

end Sys2Proof.Machine

/-! PROOFS. Every action keeps `Safe` and the parameters (R58, R59, R202): first one rule per kind of update, then the
commands, the two engines, and the step assembled from them. -/

namespace Sys2Proof.Machine

/-! ### One rule per kind of update -/

section updates
variable {s : State}

@[simp] theorem safe_setResult_iff (r : Result) : Safe (setResult r s) ↔ Safe s := Iff.rfl

@[simp] theorem safe_setRes_iff (v : Word) : Safe (setRes v s) ↔ Safe s := Iff.rfl

@[simp] theorem safe_advanceTime_iff : Safe (advanceTime s) ↔ Safe s := Iff.rfl

/-- A run list of 16 entries with a count within it (R32, R33). -/
theorem safe_of_runList (hs : Safe s) (runv : List Entry) (runc : BitVec 5) (hrunv : runv.length = Config.runvCap)
    (hrunc : runc.toNat ≤ Config.runvCap) : Safe { s with runv := runv, runc := runc } := by
  obtain ⟨hp, ⟨_, hsized⟩, htx, hrx, _, helapsed⟩ := hs
  exact ⟨hp, ⟨hrunv, hsized⟩, htx, hrx, hrunc, helapsed⟩

theorem safe_of_payOut (hs : Safe s) (payOut : List Entry) (hlen : payOut.length = s.payOut.length) :
    Safe { s with payOut := payOut } := by
  obtain ⟨hp, ⟨hrunv, hpayOut, hsized⟩, hrest⟩ := hs
  exact ⟨hp, ⟨hrunv, hlen.trans hpayOut, hsized⟩, hrest⟩

/-- A message taken while the outbound buffer is free: the free buffer's cursor is 0 (R58), so any length that fits
keeps the Scheduler's invariant. -/
theorem safe_of_queued (hs : Safe s) (hfree : s.txLen = 0#16) (txBuf : List Entry) (n : Nat)
    (hlen : txBuf.length = s.txBuf.length) (hn : n ≤ s.params.runbufCap) :
    Safe { s with txBuf := txBuf, txLen := BitVec.ofNat 16 n } := by
  obtain ⟨hp, ⟨hrunv, hpayOut, hpayIn, htxBuf, hrxBuf⟩, ⟨hle, _, _, hwait⟩, hrest⟩ := hs
  have hcur : s.txCur.toNat = 0 := by simpa [hfree] using hle
  exact ⟨hp, ⟨hrunv, hpayOut, hpayIn, hlen.trans htxBuf, hrxBuf⟩,
    ⟨hcur.trans_le (Nat.zero_le _), (Nat.mod_le _ _).trans hn, fun hpos => absurd hcur hpos.ne', hwait⟩, hrest⟩

/-- A delivered datagram: the inbound buffer is handed back empty (R135). -/
theorem safe_of_delivered (hs : Safe s) (payIn : List Entry) (trunc : Bool)
    (hlen : payIn.length = s.payIn.length) :
    Safe { s with payIn := payIn, rxLen := 0#16, rxTrunc := trunc } := by
  obtain ⟨hp, ⟨hrunv, hpayOut, hpayIn, hsized⟩, htx, ⟨_, hcur, _⟩, hcounts⟩ := hs
  exact ⟨hp, ⟨hrunv, hpayOut, hlen.trans hpayIn, hsized⟩, htx, ⟨fun _ => rfl, hcur, Nat.zero_le _⟩, hcounts⟩

/-- A new state of the Receive Capture Engine that meets its own invariant (R59). -/
theorem safe_of_rx (hs : Safe s) (rxBuf : List Entry) (rxCur rxLen : BitVec 16) (rxCapt : Bool) (trunc : Bool)
    (hlen : rxBuf.length = s.rxBuf.length) (hcapt : rxCapt = true → rxLen = 0#16)
    (hcur : rxCur.toNat ≤ s.params.runbufCap - 1) (hrxLen : rxLen.toNat ≤ s.params.runbufCap) :
    Safe { s with rxBuf := rxBuf, rxCur := rxCur, rxLen := rxLen, rxCapt := rxCapt, rxTrunc := trunc } := by
  obtain ⟨hp, ⟨hrunv, hpayOut, hpayIn, htxBuf, hrxBuf⟩, htx, _, hcounts⟩ := hs
  exact ⟨hp, ⟨hrunv, hpayOut, hpayIn, htxBuf, hlen.trans hrxBuf⟩, htx, ⟨hcapt, hcur, hrxLen⟩, hcounts⟩

/-- A new sample, and a count of microseconds since the last edge that is within the cap (R55, R56). -/
theorem safe_of_sample (hs : Safe s) (prev : Level) (n : Nat) (hn : n ≤ Config.msgPeriodUs) :
    Safe { s with rxPrev := prev, rxElapsed := BitVec.ofNat 12 n } := by
  obtain ⟨hp, hsized, htx, hrx, hrunc, _⟩ := hs
  exact ⟨hp, hsized, htx, hrx, hrunc, (Nat.mod_le n _).trans hn⟩

/-- A new state of the Transmit Scheduler that meets its own invariant (R58). -/
theorem safe_of_tx (hs : Safe s) (busOut : Level) (txLen txCur : BitVec 16) (txNext txCmp : Word) (txWait : Bool)
    (hcur : txCur.toNat ≤ txLen.toNat) (hlen : txLen.toNat ≤ s.params.runbufCap)
    (hwait : txWait = true → 0 < txCur.toNat) :
    Safe { s with busOut := busOut, txLen := txLen, txCur := txCur, txNext := txNext, txCmp := txCmp
                  txWait := txWait } := by
  obtain ⟨hp, hsized, _, hrest⟩ := hs
  exact ⟨hp, hsized, ⟨hcur, hlen, fun hpos => hpos.trans_le hcur, hwait⟩, hrest⟩

end updates

/-! ### What a command can answer -/

/-- RUNS_FROM_FRAME writes at least one run and at most one more than the frame has bits, so RUNC never exceeds
RUNV's 16 entries. -/
theorem length_runsFromFrame_le (f : Frame) : (runsFromFrame f).length ≤ 12 := by
  simpa [runsFromFrame] using length_scanRuns_le (f.getLsbD 0) 0 (frameBits f)

/-- Every command completes with RESULT and RES, and besides them three commands write: RUNS_FROM_FRAME the run list,
an accepted ENCODE_MESSAGE the outbound buffer, and a DECODE_MESSAGE with data the inbound payloads. -/
theorem exec_cases (i : Instr) (s t : State) (h : exec i s = .next t) :
    ∃ (r : Result) (v : Word),
      t = setResult r (setRes v s)
      ∨ (i = .runsFromFrame ∧ t = setResult r (setRes v { s with
          runv := overwrite s.runv ((runsFromFrame (argFrame s)).map (BitVec.ofNat 16))
          runc := BitVec.ofNat 5 (runsFromFrame (argFrame s)).length }))
      ∨ (i = .encodeMessage ∧ s.txLen = 0#16 ∧ ∃ ps, outboundPayloads s = some ps ∧ wellFormedMessage ps = true
          ∧ (messageRuns ps).length ≤ s.params.runbufCap
          ∧ t = setResult r (setRes v { s with
              txBuf := overwrite s.txBuf ((messageRuns ps).map runDuration)
              txLen := BitVec.ofNat 16 (messageRuns ps).length }))
      ∨ (i = .decodeMessage ∧ s.rxLen ≠ 0#16 ∧ t = setResult r { setRes v s with
          payIn := overwrite s.payIn
            (((inboundFrames s).take s.params.msgCap).map payloadEntry ++ [Config.terminator])
          rxLen := 0#16
          rxTrunc := false }) := by
  cases i with
  | runsFromFrame => exact ⟨_, _, .inr (.inl ⟨rfl, completeWithRes_eq_next _ _ _ h⟩)⟩
  | encodeMessage =>
    change execEncodeMessage s = .next t at h
    obtain ⟨_, e⟩ | ⟨_, _, e⟩ | ⟨hfree, ps, hps, ⟨_, e⟩ | ⟨_, _, e⟩ | ⟨hwf, hfit, e⟩⟩ :=
      execEncodeMessage_cases s <;> rw [e] at h
    · exact ⟨_, _, .inl (refuseWith_eq_next _ _ _ h)⟩
    · exact ⟨_, _, .inl (refuseWith_eq_next _ _ _ h)⟩
    · exact ⟨_, _, .inl (refuseWith_eq_next _ _ _ h)⟩
    · exact ⟨_, _, .inl (refuseWith_eq_next _ _ _ h)⟩
    · exact ⟨_, _, .inr (.inr (.inl ⟨rfl, hfree, ps, hps, hwf, hfit, completeWithRes_eq_next _ _ _ h⟩))⟩
  | decodeMessage =>
    change execDecodeMessage s = .next t at h
    obtain ⟨_, e⟩ | ⟨hfull, e⟩ := execDecodeMessage_cases s <;> rw [e] at h
    · exact ⟨_, _, .inl (refuseWith_eq_next _ _ _ h)⟩
    · exact ⟨_, _, .inr (.inr (.inr ⟨rfl, hfull, complete_eq_next _ _ _ h⟩))⟩
  | nop | reserved9 | reservedAB | reservedCF => exact ⟨_, s.res, .inl (complete_eq_next _ _ _ h)⟩
  | payloadFromFrame => exact ⟨_, _, .inl (complete_eq_next _ _ _ h)⟩
  | frameFromRuns | ticksToBitLength | bitLengthToTicks | frameFromPayload =>
    exact ⟨_, _, .inl (completeWithRes_eq_next _ _ _ h)⟩

theorem exec_keeps_safe (i : Instr) (s t : State) (hs : Safe s) (h : exec i s = .next t) : Safe t := by
  have ⟨_, ⟨hrunv, _⟩, _⟩ := hs
  obtain ⟨r, v, rfl | ⟨_, rfl⟩ | ⟨_, hfree, ps, _, _, hfit, rfl⟩ | ⟨_, _, rfl⟩⟩ := exec_cases i s t h
  · simpa using hs
  · rw [safe_setResult_iff, safe_setRes_iff]
    have hlen := length_runsFromFrame_le (argFrame s)
    refine safe_of_runList hs _ _ ?_ ?_
    · rw [length_overwrite, hrunv]
    · rw [BitVec.toNat_ofNat, Config.runvCap]; omega
  · rw [safe_setResult_iff, safe_setRes_iff]
    exact safe_of_queued hs hfree _ _ (length_overwrite _ _) hfit
  · rw [safe_setResult_iff]
    exact safe_of_delivered ((safe_setRes_iff v).mpr hs) _ _ (length_overwrite _ _)

theorem exec_keeps_params (i : Instr) (s t : State) (h : exec i s = .next t) : t.params = s.params := by
  obtain ⟨r, v, rfl | ⟨_, rfl⟩ | ⟨_, _, _, _, _, _, rfl⟩ | ⟨_, _, rfl⟩⟩ := exec_cases i s t h <;> rfl

/-! ### The Receive Capture Engine -/

/-- R59 over every branch of `rx_edge`: a cursor below RUNBUF_CAP − 1 leaves room for the cap entry. -/
theorem rxEdge_keeps_safe (el : Nat) (s : State) (hs : Safe s) : Safe (rxEdge el s) := by
  have ⟨hp, _, _, ⟨hcapt, hcur, hlen⟩, _⟩ := hs
  have hcap := (params_wellFormed_iff _).mp hp
  have hsucc : (s.rxCur + 1#16).toNat = s.rxCur.toNat + 1 := by
    rw [BitVec.toNat_add, BitVec.toNat_ofNat]; omega
  obtain ⟨_, _, e⟩ | ⟨_, _, hfree, e⟩ | ⟨_, _, _, e⟩ | ⟨_, _, hroom, e⟩ | ⟨_, _, _, e⟩ | ⟨_, _, e⟩ :=
    rxEdge_cases el s <;> rw [e]
  · exact safe_of_rx hs _ _ _ _ _ (length_writeEntry _ _ _) nofun (Nat.zero_le _) (by omega)
  · exact safe_of_rx hs _ _ _ _ _ rfl (fun _ => hfree) (Nat.zero_le _) hlen
  · exact hs
  · exact safe_of_rx hs _ _ _ _ _ (length_writeEntry _ _ _) hcapt (by omega) hlen
  · exact safe_of_rx hs _ _ _ _ _ (length_writeEntry _ _ _) nofun (Nat.zero_le _) (Nat.mod_le _ _)
  · exact hs

theorem rxStep_keeps_safe (b : Level) (s : State) (hs : Safe s) : Safe (rxStep b s) := by
  obtain ⟨_, e⟩ | ⟨_, e⟩ := rxStep_cases b s <;> rw [e]
  · exact rxEdge_keeps_safe _ _ (safe_of_sample hs b 0 (Nat.zero_le _))
  · exact safe_of_sample hs s.rxPrev _ (rxElapsedNow_le s)

theorem rxStep_params (b : Level) (s : State) : (rxStep b s).params = s.params := by
  rw [rxStep_frame]

/-! ### The Transmit Scheduler -/

/-- R58 over both branches of `tx_act`, which runs outside a wait only: completing the drain clears the cursor. -/
theorem txAct_keeps_safe (s : State) (hs : Safe s) (hwait : s.txWait = false) : Safe (txAct s) := by
  have ⟨_, _, ⟨_, hlen, _, _⟩, _⟩ := hs
  obtain ⟨hlt, e⟩ | ⟨_, e⟩ := txAct_cases s <;> rw [e]
  · refine safe_of_tx hs _ _ _ _ _ _ ?_ hlen (by simp [hwait])
    exact (Nat.mod_le _ _).trans hlt
  · exact safe_of_tx hs _ _ _ _ _ _ (Nat.zero_le _) (Nat.zero_le _) (by simp [hwait])

theorem txStep_keeps_safe (s : State) (hs : Safe s) : Safe (txStep s) := by
  have ⟨_, _, ⟨hcur, hlen, _, hwait⟩, _⟩ := hs
  obtain ⟨_, _, e⟩ | ⟨_, _, e⟩ | ⟨_, _, e⟩ | ⟨_, _, _, e⟩ | ⟨hidle, _, _, _, e⟩ | ⟨hidle, _, _, _, _, e⟩
    | ⟨_, _, _, hrun, _, e⟩ := txStep_cases s <;> rw [e]
  · exact txAct_keeps_safe _ (safe_of_tx hs _ _ _ _ _ _ hcur hlen nofun) rfl
  · exact hs
  · exact hs
  · exact safe_of_tx hs _ _ _ _ _ _ hcur hlen hwait
  · exact txAct_keeps_safe _ (safe_of_tx hs _ _ _ _ _ _ hcur hlen hwait) hidle
  · exact txAct_keeps_safe s hs hidle
  · have hpos : 0 < s.txCur.toNat := Nat.pos_of_ne_zero fun h0 => hrun (BitVec.eq_of_toNat_eq h0)
    exact safe_of_tx hs _ _ _ _ _ _ hcur hlen fun _ => hpos

theorem txStep_params (s : State) : (txStep s).params = s.params := by
  rw [txStep_frame]

/-! ### One step -/

theorem tick_keeps_safe (b : Level) (s : State) (hs : Safe s) : Safe (tick b s) :=
  txStep_keeps_safe _ (rxStep_keeps_safe b _ (safe_advanceTime_iff.mpr hs))

theorem tick_params (b : Level) (s : State) : (tick b s).params = s.params := by
  rw [tick, txStep_params, rxStep_params, advanceTime_params]

/-- The value RUNC takes from a write is at most 16, so it fits RUNC's five bits (R32, R64). -/
theorem toNat_runcWritten_le (v : Word) :
    (BitVec.ofNat 5 (min v.toNat Config.runvCap)).toNat ≤ Config.runvCap :=
  (Nat.mod_le _ _).trans (Nat.min_le_right _ _)

/-- Settles O54, over the actions a step can take. -/
theorem everyStepKeepsTheEnginesSafe : Obligations.EveryStepKeepsTheEnginesSafe := by
  intro s t hs h
  obtain ⟨u, -, ⟨is, n, hu⟩, hact⟩ := step_cases s t h
  have hsafe : Safe u := by rw [hu]; exact hs
  have hparams : s.params = u.params := by rw [hu]
  have ⟨_, ⟨hrunv, _⟩, _, _, hrunc, _⟩ := hsafe
  rw [hparams]
  obtain ⟨b, _, rfl⟩ | ⟨_, _, r, _, _, rfl⟩ | ⟨w, _, hexec⟩ | ⟨_, _, v, _, hwrite⟩ | ⟨_, rfl⟩ := hact
  · exact ⟨tick_keeps_safe b u hsafe, tick_params b u⟩
  · exact ⟨hsafe, rfl⟩
  · exact ⟨exec_keeps_safe _ u t hsafe hexec, exec_keeps_params _ u t hexec⟩
  · obtain rfl | rfl | rfl | ⟨k, rfl⟩ | ⟨k, rfl⟩ := hwrite
    · exact ⟨hsafe, rfl⟩
    · exact ⟨hsafe, rfl⟩
    · exact ⟨safe_of_runList hsafe _ _ hrunv (toNat_runcWritten_le v), rfl⟩
    · exact ⟨safe_of_runList hsafe _ _ ((length_writeEntry _ _ _).trans hrunv) hrunc, rfl⟩
    · exact ⟨safe_of_payOut hsafe _ (length_writeEntry _ _ _), rfl⟩
  · exact ⟨resetInput_safe u hsafe.1, rfl⟩

end Sys2Proof.Machine

/-! PROOFS. Host accesses (R63, R64, R69): the bus window, reads without side effect, and what a write to an operand
register or to a read-only register leaves in every register. -/

namespace Sys2Proof.Machine

/-- Settles O33: an offset has 12 bits, so it lies in the window of 4096 bytes, and taking the base off again gives it
back. -/
theorem windowHoldsEveryRegister : Obligations.WindowHoldsEveryRegister := by
  intro r
  have hlt : (encodeOffset r).toNat < 4096 := (encodeOffset r).isLt
  rw [windowOffset, busAddress, if_pos ⟨Nat.le_add_right _ _, Nat.add_lt_add_left hlt _⟩, Nat.add_sub_cancel_left,
    BitVec.ofNat_toNat, BitVec.setWidth_eq]

/-- Settles O26: an admitted read moves the read data, an AccessError puts 0 there, and neither touches more. -/
theorem hostReadHasNoSideEffect : Obligations.HostReadHasNoSideEffect := by
  intro s size addr
  obtain ⟨r, hr, e⟩ | ⟨_, herr, e⟩ := hostRead_cases size addr s
  · refine ⟨fun r' hr' => ?_, by simp only [afterAct, act, e]⟩
    obtain rfl : r = r' := by simpa [hr] using hr'
    exact e
  · refine ⟨fun r' hr' => ?_, by simp only [afterAct, act, e, accessError, busErrorData]⟩
    simp [herr] at hr'

/-- A write at an implemented register's offset is that register's own write (R64). -/
theorem act_wr (s : State) (hp : s.params.wellFormed = true) (r : HostReg) (hr : implemented s.params r = true)
    (v : Word) : act (wr r v) s = writeReg v s r := by
  simp [act, wr, hostWrite, decodeAccess_encodeOffset s.params hp r hr]

/-- Settles O29: of the registers a write can change, the hypotheses leave none. -/
theorem writesToReadOnlyRegistersAreIgnored : Obligations.WritesToReadOnlyRegistersAreIgnored := by
  intro s r v hp hr hcmd harg hrunc hrunv hpayOut
  rw [act_wr s hp r hr v]
  obtain ⟨h, _⟩ | ⟨h, _⟩ | ⟨h, _⟩ | ⟨k, h, _⟩ | ⟨k, h, _⟩ | e := writeReg_cases v s r
  · exact absurd h hcmd
  · exact absurd h harg
  · exact absurd h hrunc
  · exact absurd h (hrunv k)
  · exact absurd h (hpayOut k)
  · exact e

section operandWrites
variable (s : State)

/-! What every other register reads after an operand register's element has changed. -/

theorem readReg_of_arg_written (v : Word) (r : HostReg) (h : r ≠ .arg) :
    readReg { s with arg := v } r = readReg s r := by
  cases r with
  | arg => exact absurd rfl h
  | _ => rfl

theorem readReg_of_runc_written (n : BitVec 5) (r : HostReg) (h : r ≠ .runc) :
    readReg { s with runc := n } r = readReg s r := by
  cases r with
  | runc => exact absurd rfl h
  | _ => rfl

theorem readReg_of_runv_written (k : Nat) (e : Entry) (r : HostReg) (h : r ≠ .runv k) :
    readReg { s with runv := writeEntry s.runv k e } r = readReg s r := by
  cases r with
  | runv j =>
    have hjk : j ≠ k := fun hjk => h (congrArg _ hjk)
    simp [readReg, readEntry_writeEntry_other _ _ _ _ hjk]
  | _ => rfl

theorem readReg_of_payOut_written (k : Nat) (e : Entry) (r : HostReg) (h : r ≠ .payOut k) :
    readReg { s with payOut := writeEntry s.payOut k e } r = readReg s r := by
  cases r with
  | payOut j =>
    have hjk : j ≠ k := fun hjk => h (congrArg _ hjk)
    simp [readReg, readEntry_writeEntry_other _ _ _ _ hjk]
  | _ => rfl

end operandWrites

/-- An array entry keeps the low half of the word written to it (R33, R34). -/
theorem readEntry_of_word_written (a : List Entry) (k : Nat) (v : Word) (hk : k < a.length) :
    (readEntry (writeEntry a k (v.setWidth 16)) k).setWidth 32 = v &&& 0xFFFF#32 := by
  rw [readEntry_writeEntry_same _ _ _ hk]
  have hmask : (v &&& 0xFFFF#32).toNat = v.toNat % 2 ^ 16 := Nat.and_two_pow_sub_one_eq_mod v.toNat 16
  apply BitVec.eq_of_toNat_eq
  rw [hmask, BitVec.toNat_setWidth, BitVec.toNat_setWidth]
  omega

/-- RUNC keeps the whole of the value it takes from a write (R32, R64). -/
theorem toNat_runcWritten (v : Word) :
    ((BitVec.ofNat 5 (min v.toNat Config.runvCap)).setWidth 32).toNat = min v.toNat 16 := by
  simp only [BitVec.toNat_setWidth, BitVec.toNat_ofNat, Config.runvCap]
  omega

/-- Settles O28, one operand register at a time. -/
theorem operandRegistersReadBackWhatWasWritten : Obligations.OperandRegistersReadBackWhatWasWritten := by
  intro s r v ⟨hp, ⟨hrunv, hpayOut, _⟩, _⟩ himpl hr
  have hact := act_wr s hp r himpl v
  obtain rfl | rfl | ⟨k, rfl⟩ | ⟨k, rfl⟩ := hr
  · exact ⟨_, hact, fun _ => rfl, nofun, by simp, fun r' _ hne => readReg_of_arg_written s v r' hne⟩
  · exact ⟨_, hact, nofun, fun _ => toNat_runcWritten v, by simp,
      fun r' _ hne => readReg_of_runc_written s _ r' hne⟩
  · have hk : k < s.runv.length := hrunv ▸ of_decide_eq_true himpl
    exact ⟨_, hact, nofun, nofun, fun _ => readEntry_of_word_written _ k v hk,
      fun r' _ hne => readReg_of_runv_written s k _ r' hne⟩
  · have hk : k < s.payOut.length := hpayOut ▸ of_decide_eq_true himpl
    exact ⟨_, hact, nofun, nofun, fun _ => readEntry_of_word_written _ k v hk,
      fun r' _ hne => readReg_of_payOut_written s k _ r' hne⟩

end Sys2Proof.Machine

/-! PROOFS. The two buffer handshakes (R72, R73): what a step other than a reset can do to the engines' elements, then
one rule per engine and per command about the buffer and its length. -/

namespace Sys2Proof.Machine

/-! ### Which engine moves what -/

section frames
variable (b : Level) (s : State)

@[simp] theorem rxStep_time : (rxStep b s).time = s.time := by rw [rxStep_frame]
@[simp] theorem rxStep_txBuf : (rxStep b s).txBuf = s.txBuf := by rw [rxStep_frame]
@[simp] theorem rxStep_txLen : (rxStep b s).txLen = s.txLen := by rw [rxStep_frame]
@[simp] theorem rxStep_txCur : (rxStep b s).txCur = s.txCur := by rw [rxStep_frame]
@[simp] theorem rxStep_txNext : (rxStep b s).txNext = s.txNext := by rw [rxStep_frame]
@[simp] theorem rxStep_txCmp : (rxStep b s).txCmp = s.txCmp := by rw [rxStep_frame]
@[simp] theorem rxStep_txWait : (rxStep b s).txWait = s.txWait := by rw [rxStep_frame]
@[simp] theorem rxStep_busOut : (rxStep b s).busOut = s.busOut := by rw [rxStep_frame]

@[simp] theorem txStep_txBuf : (txStep s).txBuf = s.txBuf := by rw [txStep_frame]
@[simp] theorem txStep_rxBuf : (txStep s).rxBuf = s.rxBuf := by rw [txStep_frame]
@[simp] theorem txStep_rxLen : (txStep s).rxLen = s.rxLen := by rw [txStep_frame]

end frames

/-- A step other than a reset is a TICK, a command, or a host access that touches neither engine. -/
theorem step_engine_cases (s t : State) (h : step s = .next t) (hreset : (takeInput s).1 ≠ .reset) :
    ∃ u : State, (∃ is n, u = { s with inputs := is, draws := n }) ∧
      ((∃ b, (takeInput s).1 = .tick b ∧ t = tick b u)
        ∨ (∃ w, (takeInput s).1 = .hostWrite 4 0x000#12 w ∧ exec (decode w) u = .next t)
        ∨ (t.txBuf = u.txBuf ∧ txView t = txView u ∧ rxView t = rxView u)) := by
  obtain ⟨u, -, hu, hact⟩ := step_cases s t h
  refine ⟨u, hu, ?_⟩
  obtain htick | ⟨_, _, r, _, _, rfl⟩ | hcmd | ⟨_, _, v, _, hwrite⟩ | ⟨hr, _⟩ := hact
  · exact .inl htick
  · exact .inr (.inr ⟨rfl, rfl, rfl⟩)
  · exact .inr (.inl hcmd)
  · obtain rfl | rfl | rfl | ⟨k, rfl⟩ | ⟨k, rfl⟩ := hwrite <;> exact .inr (.inr ⟨rfl, rfl, rfl⟩)
  · exact absurd hr hreset

/-! ### The outbound buffer -/

/-- ENCODE_MESSAGE with the buffer free is the only command that writes TX_BUF or TX_LEN (R72). -/
theorem exec_outbound (i : Instr) (s t : State) (h : exec i s = .next t) :
    (t.txBuf = s.txBuf ∧ t.txLen = s.txLen) ∨ (i = .encodeMessage ∧ s.txLen = 0#16) := by
  obtain ⟨r, v, rfl | ⟨_, rfl⟩ | ⟨hi, hfree, _⟩ | ⟨_, _, rfl⟩⟩ := exec_cases i s t h
  · exact .inl ⟨rfl, rfl⟩
  · exact .inl ⟨rfl, rfl⟩
  · exact .inr ⟨hi, hfree⟩
  · exact .inl ⟨rfl, rfl⟩

theorem txAct_txLen (s : State) :
    (txAct s).txLen = s.txLen ∨ ((txAct s).txLen = 0#16 ∧ s.txLen.toNat ≤ s.txCur.toNat) := by
  obtain ⟨_, e⟩ | ⟨hle, e⟩ := txAct_cases s <;> rw [e]
  · exact .inl rfl
  · exact .inr ⟨rfl, hle⟩

/-- The Scheduler keeps TX_LEN, or clears it at the end of the last run: the cursor past it and TX_NEXT reached, in a
wait or at a firing (R147). A drain start finds the cursor at 0, below TX_LEN. -/
theorem txStep_txLen (s : State) :
    (txStep s).txLen = s.txLen
      ∨ ((txStep s).txLen = 0#16 ∧ s.txLen.toNat ≤ s.txCur.toNat ∧ txDue s = true
          ∧ (s.txWait = true ∨ s.time = s.txCmp)) := by
  obtain ⟨hwait, hdue, e⟩ | ⟨_, _, e⟩ | ⟨_, _, e⟩ | ⟨_, _, _, e⟩ | ⟨_, _, hlen, hcur, e⟩ | ⟨_, hfire, _, _, hdue, e⟩
    | ⟨_, _, _, _, _, e⟩ := txStep_cases s <;> rw [e]
  · exact (txAct_txLen _).imp_right fun ⟨h0, hle⟩ => ⟨h0, hle, hdue, .inl hwait⟩
  · exact .inl rfl
  · exact .inl rfl
  · exact .inl rfl
  · refine (txAct_txLen _).imp_right fun ⟨_, hle⟩ => ?_
    exact absurd (BitVec.eq_of_toNat_eq (by simpa [hcur] using hle)) hlen
  · exact (txAct_txLen _).imp_right fun ⟨h0, hle⟩ => ⟨h0, hle, hdue, .inr hfire⟩
  · exact .inl rfl

/-- R72 and R147 over one TICK. -/
theorem tick_outbound (b : Level) (s : State) (hs : Safe s) :
    (tick b s).txBuf = s.txBuf
      ∧ ((tick b s).txLen = s.txLen
        ∨ ((tick b s).txLen = 0#16 ∧ s.txCur = s.txLen ∧ 0 ≤ (s.time + 1#32 - s.txNext).toInt
            ∧ (s.txWait = true ∨ s.time + 1#32 = s.txCmp))) := by
  obtain ⟨_, _, ⟨hcur, _⟩, _⟩ := hs
  have hstep := txStep_txLen (rxStep b (advanceTime s))
  simp only [txDue, sdiff32, decide_eq_true_eq, rxStep_time, rxStep_txLen, rxStep_txCur, rxStep_txNext, rxStep_txCmp,
    rxStep_txWait, advanceTime_time, advanceTime_txLen, advanceTime_txCur, advanceTime_txNext, advanceTime_txCmp,
    advanceTime_txWait] at hstep
  refine ⟨by simp [tick], hstep.imp_right fun ⟨h0, hle, hdue, hend⟩ => ⟨h0, ?_, hdue, hend⟩⟩
  exact BitVec.eq_of_toNat_eq (Nat.le_antisymm hcur hle)

/-- Settles O57, over the steps that reach the Scheduler's elements. -/
theorem outboundHandshakeIsKept : Obligations.OutboundHandshakeIsKept := by
  intro s t hs h hreset
  obtain ⟨u, ⟨is, n, rfl⟩, ⟨b, hin, rfl⟩ | ⟨w, hin, hexec⟩ | ⟨hbuf, htx, _⟩⟩ := step_engine_cases s t h hreset
  · obtain ⟨hbuf, hlen⟩ := tick_outbound b { s with inputs := is, draws := n } hs
    refine ⟨fun _ => ⟨hbuf, hlen.imp_right fun ⟨h0, hcur, hdue, hend⟩ => ⟨h0, hcur, hdue, hend, b, hin⟩⟩,
      fun hfree hset => ?_⟩
    obtain hkept | ⟨h0, _⟩ := hlen
    · exact absurd (hkept.trans hfree) hset
    · exact absurd h0 hset
  · obtain ⟨hbuf, hlen⟩ | ⟨hi, hfree⟩ := exec_outbound _ _ t hexec
    · exact ⟨fun _ => ⟨hbuf, .inl hlen⟩, fun hfree hset => absurd (hlen.trans hfree) hset⟩
    · exact ⟨fun hbusy => absurd hfree hbusy, fun _ _ => ⟨w, hin, hi⟩⟩
  · have hlen : t.txLen = s.txLen := congrArg TxView.txLen htx
    exact ⟨fun _ => ⟨hbuf, .inl hlen⟩, fun hfree hset => absurd (hlen.trans hfree) hset⟩

/-! ### The inbound buffer -/

/-- DECODE_MESSAGE is the only command that writes RX_LEN, no command writes RX_BUF, and RX_LEN is only ever cleared
(R73). -/
theorem exec_inbound (i : Instr) (s t : State) (h : exec i s = .next t) :
    t.rxBuf = s.rxBuf ∧ (t.rxLen = s.rxLen ∨ (t.rxLen = 0#16 ∧ i = .decodeMessage)) := by
  obtain ⟨r, v, rfl | ⟨_, rfl⟩ | ⟨_, _, _, _, _, _, rfl⟩ | ⟨hi, _, rfl⟩⟩ := exec_cases i s t h
  · exact ⟨rfl, .inl rfl⟩
  · exact ⟨rfl, .inl rfl⟩
  · exact ⟨rfl, .inl rfl⟩
  · exact ⟨rfl, .inr ⟨rfl, hi⟩⟩

/-- Without a capture an edge writes neither RX_BUF nor RX_LEN (R164, R167). -/
theorem rxEdge_of_not_capturing (el : Nat) (s : State) (hcapt : s.rxCapt = false) :
    (rxEdge el s).rxBuf = s.rxBuf ∧ (rxEdge el s).rxLen = s.rxLen := by
  obtain ⟨_, h, _⟩ | ⟨_, _, _, e⟩ | ⟨_, _, _, e⟩ | ⟨_, h, _⟩ | ⟨_, h, _⟩ | ⟨_, _, e⟩ := rxEdge_cases el s
  · simp [hcapt] at h
  · rw [e]; exact ⟨rfl, rfl⟩
  · rw [e]; exact ⟨rfl, rfl⟩
  · simp [hcapt] at h
  · simp [hcapt] at h
  · rw [e]; exact ⟨rfl, rfl⟩

/-- Only an edge while capturing writes RX_BUF or RX_LEN (R53, R161). -/
theorem rxStep_inbound (b : Level) (s : State) :
    ((rxStep b s).rxBuf = s.rxBuf ∧ (rxStep b s).rxLen = s.rxLen) ∨ (s.rxCapt = true ∧ b = !s.rxPrev) := by
  obtain ⟨hedge, e⟩ | ⟨_, e⟩ := rxStep_cases b s
  · cases hcapt : s.rxCapt with
    | false =>
      rw [e]
      exact .inl (rxEdge_of_not_capturing _ { s with rxPrev := b, rxElapsed := 0#12 } hcapt)
    | true => exact .inr ⟨rfl, Bool.eq_not.mpr hedge⟩
  · rw [e]; exact .inl ⟨rfl, rfl⟩

/-- R73 over one TICK: the Scheduler comes after the Receive Capture Engine and leaves its elements. -/
theorem tick_inbound (b : Level) (s : State) :
    ((tick b s).rxBuf = s.rxBuf ∧ (tick b s).rxLen = s.rxLen) ∨ (s.rxCapt = true ∧ b = !s.rxPrev) := by
  simpa [tick] using rxStep_inbound b (advanceTime s)

/-- Settles O58: while a datagram is held nothing is being captured (R59). -/
theorem inboundHandshakeIsKept : Obligations.InboundHandshakeIsKept := by
  intro s t ⟨_, _, _, ⟨hcapt, _⟩, _⟩ h hreset
  obtain ⟨u, ⟨is, n, rfl⟩, ⟨b, hin, rfl⟩ | ⟨w, hin, hexec⟩ | ⟨_, _, hrx⟩⟩ := step_engine_cases s t h hreset
  · obtain ⟨hbuf, hlen⟩ | ⟨hon, hb⟩ := tick_inbound b { s with inputs := is, draws := n }
    · exact ⟨fun _ => ⟨hbuf, .inl hlen⟩, fun hfree hset => absurd (hlen.trans hfree) hset⟩
    · exact ⟨fun hfull => absurd (hcapt hon) hfull, fun _ _ => ⟨hon, hb ▸ hin⟩⟩
  · obtain ⟨hbuf, hlen⟩ := exec_inbound _ _ t hexec
    refine ⟨fun _ => ⟨hbuf, hlen.imp_right fun ⟨h0, hi⟩ => ⟨h0, w, hin, hi⟩⟩, fun hfree hset => ?_⟩
    obtain hkept | ⟨h0, _⟩ := hlen
    · exact absurd (hkept.trans hfree) hset
    · exact absurd h0 hset
  · have hbuf : t.rxBuf = s.rxBuf := congrArg RxView.rxBuf hrx
    have hlen : t.rxLen = s.rxLen := congrArg RxView.rxLen hrx
    exact ⟨fun _ => ⟨hbuf, .inl hlen⟩, fun hfree hset => absurd (hlen.trans hfree) hset⟩

end Sys2Proof.Machine

/-! PROOFS. The drain's deadline (R75, R150): a count of the ticks until the buffer is handed back goes down by one with
every TICK, and an idle Scheduler stays idle. -/

namespace Sys2Proof.Machine

/-! ### The two instants, as ticks from now -/

/-- Ticks until TIME reaches TX_CMP. -/
def cmpTicks (s : State) : Nat := (s.txCmp - s.time).toNat

/-- Ticks until TIME reaches TX_NEXT, the end of the run being driven. -/
def nextTicks (s : State) : Nat := (s.txNext - s.time).toNat

theorem time_eq_txCmp_iff (s : State) : s.time = s.txCmp ↔ cmpTicks s = 0 := by
  unfold cmpTicks; bv_omega

theorem nextTicks_eq_zero_iff (s : State) : nextTicks s = 0 ↔ s.txNext = s.time := by
  unfold nextTicks; bv_omega

/-- TX_NEXT is reached exactly when no ticks are left to it, as long as it is not half the clock's range away. -/
theorem txDue_iff (s : State) (h : nextTicks s < 2 ^ 31) : txDue s = true ↔ nextTicks s = 0 := by
  rw [txDue, decide_eq_true_iff, sdiff32_nonneg]
  unfold nextTicks at *
  bv_omega

theorem toNat_addTicks_sub (a : Word) (n : Nat) (h : n < 2 ^ 32) : (addTicks a n - a).toNat = n := by
  unfold addTicks; bv_omega

/-- An instant that is still ahead is one tick nearer after TIME has advanced. -/
theorem toNat_sub_advance (a t : Word) (h : 1 ≤ (a - t).toNat) : (a - (t + 1#32)).toNat + 1 = (a - t).toNat := by
  bv_omega

/-! ### The cursor, the wait and the buffer (R58) -/

section cursor
variable {s : State}

theorem txCur_pos (hcur : s.txCur ≠ 0#16) : 0 < s.txCur.toNat :=
  Nat.pos_of_ne_zero fun h0 => hcur (BitVec.eq_of_toNat_eq h0)

theorem txCur_ne_zero_of_wait (hs : Safe s) (hwait : s.txWait = true) : s.txCur ≠ 0#16 := by
  obtain ⟨_, _, ⟨_, _, _, hcur⟩, _⟩ := hs
  intro h0
  simpa [h0] using hcur hwait

theorem not_waiting_of_not_started (hs : Safe s) (hcur : s.txCur = 0#16) : s.txWait = false :=
  Bool.eq_false_iff.mpr fun hwait => txCur_ne_zero_of_wait hs hwait hcur

theorem txCur_eq_zero_of_free (hs : Safe s) (hfree : s.txLen = 0#16) : s.txCur = 0#16 := by
  obtain ⟨_, _, ⟨hle, _⟩, _⟩ := hs
  exact BitVec.eq_of_toNat_eq (by simpa [hfree] using hle)

end cursor

/-! ### What is left of a drain -/

/-- Ticks of the runs from TX_CUR on, those not yet started. -/
def unstartedTicks (s : State) : Nat :=
  ((List.range' s.txCur.toNat (s.txLen.toNat - s.txCur.toNat)).map (runTicks s)).sum

/-- Ticks until the drain of the message held is complete: until it starts or the run being driven ends, then the
runs not yet started. -/
def drainTicks (s : State) : Nat := (if s.txCur = 0#16 then cmpTicks s else nextTicks s) + unstartedTicks s

/-- The outbound buffer is handed back and the line is at the idle level (R147). -/
def Drained (s : State) : Prop := s.txLen = 0#16 ∧ s.busOut = true

theorem drainTicks_of_idle {s : State} (hcur : s.txCur = 0#16) : drainTicks s = cmpTicks s + unstartedTicks s := by
  rw [drainTicks, if_pos hcur]

theorem drainTicks_of_run {s : State} (hcur : s.txCur ≠ 0#16) : drainTicks s = nextTicks s + unstartedTicks s := by
  rw [drainTicks, if_neg hcur]

/-- The durations are those of TX_BUF (R85). -/
theorem runTicks_congr {s t : State} (h : s.txBuf = t.txBuf) : runTicks s = runTicks t := by
  funext j; rw [runTicks, runTicks, h]

/-- Before its drain starts a message waits for the compare, then takes the sum of its durations (R145, R150). -/
theorem drainTicks_of_not_started (s : State) (hcur : s.txCur = 0#16) :
    drainTicks s = cmpTicks s + runStart s s.txLen.toNat := by
  simp [drainTicks_of_idle hcur, unstartedTicks, runStart, hcur, List.range_eq_range']

/-- `TxTimed` in the middle of a tick: TIME has advanced, so each count is one lower, and the Scheduler has not acted
yet. -/
structure TxCounting (s : State) : Prop where
  durations : ∀ j < s.txLen.toNat, 208 ≤ (readEntry s.txBuf j).toNat ∧ (readEntry s.txBuf j).toNat ≤ 2080
  armed : s.txWait = false → cmpTicks s < Config.msgPeriodUs
  waiting : s.txWait = true → nextTicks s < s.params.marginUs
  early : s.txWait = false → 0 < s.txCur.toNat → nextTicks s = cmpTicks s + s.params.marginUs

/-! ### The first half of a tick -/

theorem txCounting_of_advance (b : Level) (s : State) (ht : TxTimed s) :
    TxCounting (rxStep b (advanceTime s)) := by
  obtain ⟨hdur, hcmp, hnext, hearly⟩ := ht
  constructor <;>
    simp only [cmpTicks, nextTicks, rxStep_params, rxStep_time, rxStep_txBuf, rxStep_txLen, rxStep_txCur,
      rxStep_txNext, rxStep_txCmp, rxStep_txWait, advanceTime_params, advanceTime_time, advanceTime_txBuf,
      advanceTime_txLen, advanceTime_txCur, advanceTime_txNext, advanceTime_txCmp, advanceTime_txWait]
  · exact hdur
  · intro hwait
    obtain ⟨hpos, hle⟩ := hcmp hwait
    have := toNat_sub_advance _ _ hpos
    omega
  · intro hwait
    obtain ⟨hpos, hle⟩ := hnext hwait
    have := toNat_sub_advance _ _ hpos
    omega
  · intro hwait hcur
    obtain ⟨hpos, _⟩ := hcmp hwait
    have heq := hearly hwait hcur
    have := toNat_sub_advance _ _ hpos
    have := toNat_sub_advance s.txNext s.time (by omega)
    omega

/-- The first half of a tick brings the end of a drain one tick nearer. -/
theorem drainTicks_advance (b : Level) (s : State) (hs : Safe s) (ht : TxTimed s) :
    drainTicks (rxStep b (advanceTime s)) + 1 = drainTicks s := by
  obtain ⟨_, hcmp, hnext, hearly⟩ := ht
  have hruns : unstartedTicks (rxStep b (advanceTime s)) = unstartedTicks s := by
    have hdur : runTicks (rxStep b (advanceTime s)) = runTicks s := runTicks_congr (by simp)
    simp [unstartedTicks, hdur]
  simp only [drainTicks, hruns, cmpTicks, nextTicks, rxStep_time, rxStep_txCur, rxStep_txNext, rxStep_txCmp,
    advanceTime_time, advanceTime_txCur, advanceTime_txNext, advanceTime_txCmp]
  by_cases hcur : s.txCur = 0#16
  · have hwait := not_waiting_of_not_started hs hcur
    have := toNat_sub_advance _ _ (hcmp hwait).1
    simp only [hcur, if_true]
    omega
  · have hahead : 1 ≤ (s.txNext - s.time).toNat := by
      cases hwait : s.txWait with
      | true => exact (hnext hwait).1
      | false => exact (hearly hwait (txCur_pos hcur)).symm ▸ Nat.le_add_right_of_le (hcmp hwait).1
    have := toNat_sub_advance _ _ hahead
    simp only [hcur, if_false]
    omega

/-! ### The Scheduler's half of a tick -/

section txAct
variable {s : State}

/-- The runs not yet started are the run at the cursor and those after it. -/
theorem unstartedTicks_startRun (hlt : s.txCur.toNat < s.txLen.toNat) :
    runTicks s s.txCur.toNat + unstartedTicks (startRun s.txCur.toNat s) = unstartedTicks s := by
  have hlen := s.txLen.isLt
  have hcur : (BitVec.ofNat 16 (s.txCur.toNat + 1)).toNat = s.txCur.toNat + 1 := by
    rw [BitVec.toNat_ofNat]; omega
  obtain ⟨n, hn⟩ : ∃ n, s.txLen.toNat = s.txCur.toNat + 1 + n := Nat.exists_eq_add_of_le hlt
  have hruns : runTicks (startRun s.txCur.toNat s) = runTicks s := rfl
  simp only [unstartedTicks, hruns, startRun_txLen, startRun_txCur, hcur]
  rw [show s.txLen.toNat - (s.txCur.toNat + 1) = n by omega, show s.txLen.toNat - s.txCur.toNat = n + 1 by omega,
    List.range'_succ, List.map_cons, List.sum_cons]

/-- `tx_act()` at the instant TX_NEXT completes the drain, or leaves just the runs that were not yet started. -/
theorem txAct_drains (hnow : nextTicks s = 0) :
    Drained (txAct s) ∨ ((txAct s).txLen = s.txLen ∧ drainTicks (txAct s) = unstartedTicks s) := by
  obtain ⟨hlt, e⟩ | ⟨_, e⟩ := txAct_cases s <;> rw [e]
  · have hlen := s.txLen.isLt
    have hcur : (startRun s.txCur.toNat s).txCur ≠ 0#16 := by
      rw [startRun_txCur]; bv_omega
    have hnext : nextTicks (startRun s.txCur.toNat s) = runTicks s s.txCur.toNat := by
      rw [nextTicks, startRun_txNext, startRun_time, (nextTicks_eq_zero_iff s).mp hnow]
      exact toNat_addTicks_sub _ _ ((readEntry s.txBuf s.txCur.toNat).isLt.trans (by decide))
    refine .inr ⟨rfl, ?_⟩
    rw [drainTicks_of_run hcur, hnext, unstartedTicks_startRun hlt]
  · exact .inl ⟨rfl, rfl⟩

/-- `tx_act()` at the instant TX_NEXT arms the compare again: MARGIN_US before the next run's end, or one message
period ahead (R146, R148). -/
theorem txAct_txTimed (hp : s.params.wellFormed = true) (hwait : s.txWait = false) (hnow : nextTicks s = 0)
    (hdur : ∀ j < s.txLen.toNat, 208 ≤ (readEntry s.txBuf j).toNat ∧ (readEntry s.txBuf j).toNat ≤ 2080) :
    TxTimed (txAct s) := by
  obtain ⟨_, _, _, _, hmargin⟩ := (params_wellFormed_iff _).mp hp
  obtain ⟨hlt, e⟩ | ⟨_, e⟩ := txAct_cases s <;> rw [e]
  · obtain ⟨hmin, hmax⟩ := hdur _ hlt
    have hrearm : rearmTicks s.params.marginUs (readEntry s.txBuf s.txCur.toNat).toNat
        = (readEntry s.txBuf s.txCur.toNat).toNat - s.params.marginUs := by rw [rearmTicks]; omega
    have hcmp := toNat_addTicks_sub s.time ((readEntry s.txBuf s.txCur.toNat).toNat - s.params.marginUs) (by omega)
    have hnext := toNat_addTicks_sub s.time (readEntry s.txBuf s.txCur.toNat).toNat (by omega)
    have heq := (nextTicks_eq_zero_iff s).mp hnow
    refine ⟨hdur, ?_, by simp [hwait], ?_⟩ <;>
      simp only [startRun_txCmp, startRun_txNext, startRun_time, startRun_params, heq, hrearm, hcmp, hnext,
        Config.msgPeriodUs] <;>
      omega
  · have hcmp := toNat_addTicks_sub s.time Config.msgPeriodUs (by decide)
    exact ⟨by simp, by simp [hcmp], by simp [hwait], by simp⟩

end txAct

/-- While a run is driven its end is at most a message period and MARGIN_US ahead, far below half the clock's range. -/
theorem txDue_iff_of_counting {s : State} (hs : Safe s) (hc : TxCounting s) (hcur : s.txCur ≠ 0#16) :
    txDue s = true ↔ nextTicks s = 0 := by
  obtain ⟨_, _, _, _, hmargin⟩ := (params_wellFormed_iff _).mp hs.1
  apply txDue_iff
  cases hwait : s.txWait with
  | true => have := hc.waiting hwait; omega
  | false =>
    have := hc.early hwait (txCur_pos hcur)
    have := hc.armed hwait
    simp only [Config.msgPeriodUs] at this
    omega

/-- The Scheduler's half of a tick with a message held: only `tx_act()` moves a count, and it runs at the instant the
run being driven ends or the drain starts. -/
theorem txStep_drains {s : State} (hs : Safe s) (hc : TxCounting s) (hlen : s.txLen ≠ 0#16) :
    Drained (txStep s) ∨ ((txStep s).txLen = s.txLen ∧ drainTicks (txStep s) = drainTicks s) := by
  obtain ⟨hwait, hdue, e⟩ | ⟨_, _, e⟩ | ⟨_, _, e⟩ | ⟨_, _, hfree, _⟩ | ⟨_, hfire, _, hcur, e⟩
    | ⟨_, _, _, hcur, hdue, e⟩ | ⟨_, _, _, _, _, e⟩ := txStep_cases s
  · have hcur := txCur_ne_zero_of_wait hs hwait
    have hnow := (txDue_iff_of_counting hs hc hcur).mp hdue
    rw [e, drainTicks_of_run hcur, hnow, Nat.zero_add]
    exact txAct_drains (s := { s with txWait := false }) hnow
  · rw [e]; exact .inr ⟨rfl, rfl⟩
  · rw [e]; exact .inr ⟨rfl, rfl⟩
  · exact absurd hfree hlen
  · rw [e, drainTicks_of_idle hcur, (time_eq_txCmp_iff s).mp hfire, Nat.zero_add]
    exact txAct_drains (s := { s with txNext := s.time }) ((nextTicks_eq_zero_iff _).mpr rfl)
  · have hnow := (txDue_iff_of_counting hs hc hcur).mp hdue
    rw [e, drainTicks_of_run hcur, hnow, Nat.zero_add]
    exact txAct_drains hnow
  · rw [e]; exact .inr ⟨rfl, rfl⟩

/-- The Scheduler's half of a tick re-establishes the timing invariant. -/
theorem txStep_txTimed {s : State} (hs : Safe s) (hc : TxCounting s) : TxTimed (txStep s) := by
  have hp := hs.1
  obtain ⟨hwait, hdue, e⟩ | ⟨hwait, hdue, e⟩ | ⟨hwait, hfire, e⟩ | ⟨hwait, _, hfree, e⟩ | ⟨hwait, _, _, _, e⟩
    | ⟨hwait, _, _, hcur, hdue, e⟩ | ⟨hwait, hfire, _, hcur, hdue, e⟩ := txStep_cases s <;> rw [e]
  · have hnow := (txDue_iff_of_counting hs hc (txCur_ne_zero_of_wait hs hwait)).mp hdue
    exact txAct_txTimed (s := { s with txWait := false }) hp rfl hnow hc.durations
  · have hnot := mt (txDue_iff_of_counting hs hc (txCur_ne_zero_of_wait hs hwait)).mpr (by simp [hdue])
    exact ⟨hc.durations, by simp [hwait], fun _ => ⟨Nat.pos_of_ne_zero hnot, (hc.waiting hwait).le⟩, by simp [hwait]⟩
  · have hnot := mt (time_eq_txCmp_iff s).mpr hfire
    exact ⟨hc.durations, fun _ => ⟨Nat.pos_of_ne_zero hnot, (hc.armed hwait).le⟩, by simp [hwait], hc.early⟩
  · have hcmp := toNat_addTicks_sub s.time Config.msgPeriodUs (by decide)
    exact ⟨hc.durations, by simp [hcmp], by simp [hwait], by simp [txCur_eq_zero_of_free hs hfree]⟩
  · exact txAct_txTimed (s := { s with txNext := s.time }) hp hwait ((nextTicks_eq_zero_iff _).mpr rfl) hc.durations
  · exact txAct_txTimed hp hwait ((txDue_iff_of_counting hs hc hcur).mp hdue) hc.durations
  · have hnot := mt (txDue_iff_of_counting hs hc hcur).mpr (by simp [hdue])
    have heq : nextTicks s = s.params.marginUs := by
      rw [hc.early hwait (txCur_pos hcur), (time_eq_txCmp_iff s).mp hfire, Nat.zero_add]
    exact ⟨hc.durations, by simp, fun _ => ⟨Nat.pos_of_ne_zero hnot, heq.le⟩, by simp⟩

/-- With nothing to send and no wait the Scheduler keeps the line idle: it does nothing, or beats (R146). -/
theorem txStep_keeps_drained {s : State} (hwait : s.txWait = false) (hd : Drained s) : Drained (txStep s) := by
  obtain ⟨hfree, hidle⟩ := hd
  obtain ⟨h, _⟩ | ⟨h, _⟩ | ⟨_, _, e⟩ | ⟨_, _, _, e⟩ | ⟨_, _, h, _⟩ | ⟨_, _, h, _⟩ | ⟨_, _, h, _⟩ := txStep_cases s
  · simp [hwait] at h
  · simp [hwait] at h
  · rw [e]; exact ⟨hfree, hidle⟩
  · rw [e]; exact ⟨hfree, rfl⟩
  · exact absurd hfree h
  · exact absurd hfree h
  · exact absurd hfree h

/-! ### Whole ticks -/

theorem tick_keeps_txTimed (b : Level) (s : State) (hs : Safe s) (ht : TxTimed s) : TxTimed (tick b s) :=
  txStep_txTimed (rxStep_keeps_safe b _ (safe_advanceTime_iff.mpr hs)) (txCounting_of_advance b s ht)

/-- A tick with a message held completes the drain, or brings its end one tick nearer. -/
theorem tick_drains (b : Level) (s : State) (hs : Safe s) (ht : TxTimed s) (hlen : s.txLen ≠ 0#16) :
    Drained (tick b s) ∨ ((tick b s).txLen ≠ 0#16 ∧ drainTicks (tick b s) + 1 = drainTicks s) := by
  have hsafe := rxStep_keeps_safe b _ (safe_advanceTime_iff.mpr hs)
  have hheld : (rxStep b (advanceTime s)).txLen ≠ 0#16 := by simpa using hlen
  refine (txStep_drains hsafe (txCounting_of_advance b s ht) hheld).imp_right fun ⟨hkept, hcount⟩ => ⟨?_, ?_⟩
  · rw [tick, hkept]; exact hheld
  · rw [tick, hcount, drainTicks_advance b s hs ht]

/-- A wait needs a cursor past 0 and so a message held (R58): an idle Scheduler is in no wait. -/
theorem tick_keeps_drained (b : Level) (s : State) (hs : Safe s) (hd : Drained s) : Drained (tick b s) := by
  obtain ⟨hfree, hidle⟩ := hd
  have hwait := not_waiting_of_not_started hs (txCur_eq_zero_of_free hs hfree)
  exact txStep_keeps_drained (by simpa using hwait) ⟨by simpa using hfree, by simpa using hidle⟩

theorem ticks_keep_drained (bs : List Level) (s : State) (hs : Safe s) (hd : Drained s) : Drained (ticks bs s) := by
  induction bs generalizing s with
  | nil => exact hd
  | cons b bs ih => exact ih (tick b s) (tick_keeps_safe b s hs) (tick_keeps_drained b s hs hd)

/-- A message held is drained after `drainTicks` ticks, and from then on. -/
theorem ticks_drain (bs : List Level) (s : State) (hs : Safe s) (ht : TxTimed s) (hlen : s.txLen ≠ 0#16)
    (hbs : drainTicks s ≤ bs.length) : Drained (ticks bs s) := by
  induction bs generalizing s with
  | nil =>
    have := drainTicks_advance true s hs ht
    simp only [List.length_nil] at hbs
    omega
  | cons b bs ih =>
    have hsafe := tick_keeps_safe b s hs
    obtain hd | ⟨hheld, hcount⟩ := tick_drains b s hs ht hlen
    · exact ticks_keep_drained bs _ hsafe hd
    · refine ih (tick b s) hsafe (tick_keeps_txTimed b s hs ht) hheld ?_
      simp only [List.length_cons] at hbs
      omega

/-- Settles O44: a message not yet started waits at most one message period for the compare (R142, R205). -/
theorem acceptedMessageDrainsInTime : Obligations.AcceptedMessageDrainsInTime := by
  intro s bs hs ht hlen hcur hbs
  have ⟨_, hcmp, _⟩ := ht
  have hwait := not_waiting_of_not_started hs hcur
  have hle : cmpTicks s ≤ 2291 := (hcmp hwait).2
  refine ticks_drain bs s hs ht hlen ?_
  rw [drainTicks_of_not_started s hcur, hbs]
  exact Nat.add_le_add_right hle _

end Sys2Proof.Machine

/-! PROOFS. Command words (R101 to R105): OP alone decides the command, encoding and decoding agree, and a step whose
action is a write to CMD runs the command decoded. -/

namespace Sys2Proof.Machine

section words
variable (w : Word) (i : Instr)

/-- OP is the remainder of the word by 16, so bits 31:4 play no part (R101). -/
theorem toNat_opField : (opField w).toNat = w.toNat % 16 := by
  simp [opField]

@[simp] theorem opField_encode : opField (encode i) = encodeOp i := by
  refine BitVec.eq_of_toNat_eq ?_
  have := (encodeOp i).isLt
  rw [toNat_opField, encode, BitVec.toNat_setWidth]
  omega

/-- Every OP value is one its row of the opcode map covers (R103, R105). -/
theorem wellFormed_decodeOp : ∀ op : BitVec 4, (decodeOp op).wellFormed = true := by decide

@[simp] theorem encodeOp_decodeOp : ∀ op : BitVec 4, encodeOp (decodeOp op) = op := by decide

/-- The opcode map of R103 read back, row by row. -/
theorem decodeOp_encodeOp (hi : i.wellFormed = true) : decodeOp (encodeOp i) = i := by
  cases i with
  | nop => exact Laws.OpReadAlone.nop hi
  | runsFromFrame => exact Laws.OpReadAlone.runsFromFrame hi
  | frameFromRuns => exact Laws.OpReadAlone.frameFromRuns hi
  | ticksToBitLength => exact Laws.OpReadAlone.ticksToBitLength hi
  | bitLengthToTicks => exact Laws.OpReadAlone.bitLengthToTicks hi
  | frameFromPayload => exact Laws.OpReadAlone.frameFromPayload hi
  | payloadFromFrame => exact Laws.OpReadAlone.payloadFromFrame hi
  | encodeMessage => exact Laws.OpReadAlone.encodeMessage hi
  | decodeMessage => exact Laws.OpReadAlone.decodeMessage hi
  | reserved9 => exact Laws.OpReadAlone.reserved9 hi
  | reservedAB op => exact Laws.OpReadAlone.reservedAB op hi
  | reservedCF op => exact Laws.OpReadAlone.reservedCF op hi

theorem decode_encode (hi : i.wellFormed = true) : decode (encode i) = i := by
  rw [decode, opField_encode, decodeOp_encodeOp i hi]

/-- A word is read as the command whose OP its low four bits are, and as no other. -/
theorem decode_eq_iff (hi : i.wellFormed = true) : decode w = i ↔ w.toNat % 16 = (encodeOp i).toNat := by
  rw [← toNat_opField, BitVec.toNat_inj]
  constructor
  · rintro rfl
    exact (encodeOp_decodeOp (opField w)).symm
  · intro hop
    rw [decode, hop, decodeOp_encodeOp i hi]

end words

/-- Settles O22: `decodeOp` and `encodeOp` invert each other on the OP field. -/
theorem commandWordsDecodeByOpAlone : Obligations.CommandWordsDecodeByOpAlone :=
  ⟨fun w => wellFormed_decodeOp (opField w), fun i hi => ⟨decode_encode i hi, fun w => decode_eq_iff w i hi⟩⟩

/-- Settles O24: the low four bits of each word are the OP of its command. -/
theorem sampleCommandWordsDecode : Obligations.SampleCommandWordsDecode :=
  ⟨(decode_eq_iff _ .nop rfl).mpr rfl, (decode_eq_iff _ .runsFromFrame rfl).mpr rfl,
    (decode_eq_iff _ .frameFromRuns rfl).mpr rfl, (decode_eq_iff _ .payloadFromFrame rfl).mpr rfl,
    (decode_eq_iff _ .encodeMessage rfl).mpr rfl, (decode_eq_iff _ .decodeMessage rfl).mpr rfl,
    (decode_eq_iff _ .reserved9 rfl).mpr rfl, (decode_eq_iff _ (.reservedAB 0xB#4) rfl).mpr rfl,
    (decode_eq_iff _ (.reservedCF 0xF#4) rfl).mpr rfl⟩

/-- CMD is mapped for all parameters, admitted or not: its write runs the command (R101). -/
theorem act_wrCmd (w : Word) (s : State) : act (wrCmd w) s = exec (decode w) s := rfl

/-- Settles O25: the action taken is the write to CMD, and it leaves the rest of the schedule. -/
theorem stepRunsTheDecodedCommand : Obligations.StepRunsTheDecodedCommand := by
  refine ⟨fun s w rest hin => ?_, fun s w hw => ?_⟩
  · rw [step, takeInput_of_cons s _ rest hin]
    exact act_wrCmd w { s with inputs := rest }
  · have hin : (s.withFetchWord 32 w).inputs = wrCmd (BitVec.ofNat 32 w) :: s.inputs := by
      rw [State.withFetchWord, Nat.mod_eq_of_lt hw]
    rw [step, takeInput_of_cons _ _ _ hin]
    exact act_wrCmd (BitVec.ofNat 32 w) s

end Sys2Proof.Machine

/-! PROOFS. The RESULT word (R104, R107): its layout, bit by bit, and what the host reads off it. -/

namespace Sys2Proof.Machine

/-- RESULT is mapped for all parameters, admitted or not. -/
theorem act_rd_result (s : State) : act (rd .result) s = .next { s with readData := resultWord s.result } := rfl

theorem codeBits_inj (c d : Code) : codeBits c = codeBits d ↔ c = d := by
  cases c <;> cases d <;> decide

/-- CODE values 6 and 7 are never produced (R104). -/
theorem toNat_codeBits_le (c : Code) : (codeBits c).toNat ≤ 5 := by
  cases c <;> decide

section resultWord
variable (r : Result)

/-- The layout of R104 above CODE: four flags from bit 3 up, and 0 in bits 31:7. -/
theorem getLsbD_resultWord (i : Nat) : (resultWord r).getLsbD i =
    if i < 3 then (codeBits r.code).getLsbD i else [r.valid, r.corrupt, r.trunc, r.ovf].getD (i - 3) false := by
  simp only [resultWord, BitVec.getLsbD_append, BitVec.getLsbD_ofBool, BitVec.getLsbD_zero]
  match i with
  | 0 | 1 | 2 | 3 | 4 | 5 | 6 => rfl
  | n + 7 => simp

/-- CODE is the low three bits (R104). -/
theorem extractLsb'_resultWord : (resultWord r).extractLsb' 0 3 = codeBits r.code := by
  ext i hi
  simp [BitVec.getElem_extractLsb', getLsbD_resultWord, hi, BitVec.getLsbD_eq_getElem]

theorem toNat_resultWord_mod : (resultWord r).toNat % 8 = (codeBits r.code).toNat := by
  simp [← extractLsb'_resultWord]

/-- The low three bits of RESULT are the number of its completion code, and of no other. -/
theorem toNat_resultWord_mod_eq_iff (c : Code) : (resultWord r).toNat % 8 = (codeBits c).toNat ↔ r.code = c := by
  rw [toNat_resultWord_mod, BitVec.toNat_inj, codeBits_inj]

theorem accepted_resultWord : accepted (resultWord r) = true ↔ r.code = .ok := by
  rw [accepted, extractLsb'_resultWord, beq_iff_eq]
  exact codeBits_inj r.code .ok

theorem received_resultWord : received (resultWord r) = true ↔ r.code ≠ .nodata := by
  rw [received, extractLsb'_resultWord, bne_iff_ne]
  exact not_congr (codeBits_inj r.code .nodata)

end resultWord

/-- Settles O31: the word read is `resultWord`, its CODE taken as a number and the rest bit by bit. -/
theorem resultWordHasItsLayout : Obligations.ResultWordHasItsLayout := by
  intro s
  have hcode := toNat_resultWord_mod_eq_iff s.result
  have hbit := getLsbD_resultWord s.result
  refine ⟨resultWord s.result, act_rd_result s, ?_, hcode .ok, hcode .busy, hcode .malformed, hcode .tooLong,
    hcode .nodata, hcode .illegalOp, hbit 3, hbit 4, hbit 5, hbit 6, fun i hi => ?_,
    accepted_resultWord _, received_resultWord _, hbit 4⟩
  · rw [toNat_resultWord_mod]
    exact toNat_codeBits_le _
  · rw [hbit i, if_neg (by omega)]
    exact List.getD_eq_default _ _ (by simp only [List.length_cons, List.length_nil]; omega)

end Sys2Proof.Machine

/-! PROOFS. The commands (R103, R104, R202): every command completes, what it leaves of the state, and the RESULT it
writes. -/

namespace Sys2Proof.Machine

/-! ### Completion and frame -/

theorem exec_completes (i : Instr) (s : State) : ∃ t, exec i s = .next t := by
  cases i with
  | encodeMessage =>
    obtain ⟨_, e⟩ | ⟨_, _, e⟩ | ⟨_, _, _, ⟨_, e⟩ | ⟨_, _, e⟩ | ⟨_, _, e⟩⟩ := execEncodeMessage_cases s <;>
      exact ⟨_, e⟩
  | decodeMessage =>
    obtain ⟨_, e⟩ | ⟨_, e⟩ := execDecodeMessage_cases s <;> exact ⟨_, e⟩
  | _ => exact ⟨_, rfl⟩

/-- What every command leaves: everything but the elements of the "writes" column of R103. -/
theorem exec_frame (i : Instr) (s t : State) (h : exec i s = .next t) :
    t = { s with
      runv := t.runv, runc := t.runc, txBuf := t.txBuf, txLen := t.txLen, payIn := t.payIn, rxLen := t.rxLen
      rxTrunc := t.rxTrunc, res := t.res, result := t.result } := by
  obtain ⟨r, v, rfl | ⟨_, rfl⟩ | ⟨_, _, _, _, _, _, rfl⟩ | ⟨_, _, rfl⟩⟩ := exec_cases i s t h <;> rfl

/-- RUNS_FROM_FRAME is the only command that writes the run list (R112). -/
theorem exec_keeps_runList (i : Instr) (s t : State) (h : exec i s = .next t) (hi : i ≠ .runsFromFrame) :
    t.runv = s.runv ∧ t.runc = s.runc := by
  obtain ⟨r, v, rfl | ⟨hr, _⟩ | ⟨_, _, _, _, _, _, rfl⟩ | ⟨_, _, rfl⟩⟩ := exec_cases i s t h
  · exact ⟨rfl, rfl⟩
  · exact absurd hr hi
  · exact ⟨rfl, rfl⟩
  · exact ⟨rfl, rfl⟩

/-- ENCODE_MESSAGE is the only command that writes the outbound buffer (R131). -/
theorem exec_keeps_outbound (i : Instr) (s t : State) (h : exec i s = .next t) (hi : i ≠ .encodeMessage) :
    t.txBuf = s.txBuf ∧ t.txLen = s.txLen :=
  (exec_outbound i s t h).resolve_right fun ⟨he, _⟩ => hi he

/-- DECODE_MESSAGE is the only command that writes the inbound payloads and hands the inbound buffer back (R135). -/
theorem exec_keeps_inbound (i : Instr) (s t : State) (h : exec i s = .next t) (hi : i ≠ .decodeMessage) :
    t.payIn = s.payIn ∧ t.rxLen = s.rxLen ∧ t.rxTrunc = s.rxTrunc := by
  obtain ⟨r, v, rfl | ⟨_, rfl⟩ | ⟨_, _, _, _, _, _, rfl⟩ | ⟨hd, _⟩⟩ := exec_cases i s t h
  · exact ⟨rfl, rfl, rfl⟩
  · exact ⟨rfl, rfl, rfl⟩
  · exact ⟨rfl, rfl, rfl⟩
  · exact absurd hd hi

/-- NOP and the reserved opcodes write RESULT alone (R139, R140). -/
theorem exec_keeps_res (i : Instr) (s t : State) (h : exec i s = .next t)
    (hi : i = .nop ∨ i = .reserved9 ∨ (∃ op, i = .reservedAB op) ∨ ∃ op, i = .reservedCF op) : t.res = s.res := by
  obtain rfl | rfl | ⟨op, rfl⟩ | ⟨op, rfl⟩ := hi <;> rw [complete_eq_next _ _ _ h, setResult_res]

/-- Settles O12, from the frame of every command and the four rules about what only some commands write. -/
theorem everyCommandCompletesWithinItsFrame : Obligations.EveryCommandCompletesWithinItsFrame := by
  intro i s
  obtain ⟨t, h⟩ := exec_completes i s
  have hframe := exec_frame i s t h
  refine ⟨t, h, ?_⟩
  refine ⟨?_, ?_, ?_, ?_, ?_, ?_, ?_, ?_, ?_, ?_, ?_, ?_, ?_, ?_, ?_, ?_, ?_, exec_keeps_runList i s t h,
    exec_keeps_outbound i s t h, exec_keeps_inbound i s t h, exec_keeps_res i s t h⟩ <;> rw [hframe]

/-! ### The RESULT a command writes -/

/-- ENCODE_MESSAGE writes CODE alone: OK, or one of its three refusals (R131, R203). -/
theorem encodeMessage_result (s t : State) (h : exec .encodeMessage s = .next t) :
    ∃ c, t.result = codeOnly c ∧ (c = .ok ∨ c = .busy ∨ c = .malformed ∨ c = .tooLong) := by
  change execEncodeMessage s = .next t at h
  obtain ⟨_, e⟩ | ⟨_, _, e⟩ | ⟨_, _, _, ⟨_, e⟩ | ⟨_, _, e⟩ | ⟨_, _, e⟩⟩ := execEncodeMessage_cases s <;> rw [e] at h
  · exact ⟨.busy, congrArg _ (refuseWith_eq_next _ _ _ h), by simp⟩
  · exact ⟨.malformed, congrArg _ (refuseWith_eq_next _ _ _ h), by simp⟩
  · exact ⟨.malformed, congrArg _ (refuseWith_eq_next _ _ _ h), by simp⟩
  · exact ⟨.tooLong, congrArg _ (refuseWith_eq_next _ _ _ h), by simp⟩
  · exact ⟨.ok, congrArg _ (completeWithRes_eq_next _ _ _ h), by simp⟩

/-- DECODE_MESSAGE never sets VALID, and answers NODATA or OK (R135). -/
theorem decodeMessage_result (s t : State) (h : exec .decodeMessage s = .next t) :
    t.result.valid = false ∧ (t.result.code = .nodata ∨ t.result.code = .ok) := by
  change execDecodeMessage s = .next t at h
  obtain ⟨_, e⟩ | ⟨_, e⟩ := execDecodeMessage_cases s <;> rw [e] at h
  · rw [refuseWith_eq_next _ _ _ h]
    exact ⟨rfl, .inl rfl⟩
  · rw [complete_eq_next _ _ _ h]
    exact ⟨rfl, .inr rfl⟩

/-- Settles O13, command by command: each but the two message commands writes one RESULT. -/
theorem completionCodesBelongToTheirCommands : Obligations.CompletionCodesBelongToTheirCommands := by
  intro i s t h
  cases i with
  | encodeMessage =>
    obtain ⟨c, hr, hc⟩ := encodeMessage_result s t h
    rw [hr]
    obtain rfl | rfl | rfl | rfl := hc <;> simp [codeOnly]
  | decodeMessage =>
    obtain ⟨hvalid, hc | hc⟩ := decodeMessage_result s t h <;> simp [hvalid, hc]
  | _ =>
    rw [complete_eq_next _ _ _ h]
    simp [codeOnly]

end Sys2Proof.Machine

/-! PROOFS. The runs of a message (R82, R113, R131): each payload's frame starts with 0 and ends with 1, so its runs
have 1 to 10 bits, and the durations written to TX_BUF lie in 208 … 2080 (R85). -/

namespace Sys2Proof.Machine

/-! ### The runs of one frame -/

/-- Once the level changes, no run takes all the bits. -/
theorem lt_of_mem_scanRuns (v : Level) (n : Nat) (bs : List Level) (hn : 1 ≤ n) (hchange : ∃ b ∈ bs, b ≠ v) :
    ∀ r ∈ scanRuns v n bs, r < n + bs.length := by
  induction bs generalizing n with
  | nil => simp at hchange
  | cons b bs ih =>
    intro r hr
    rw [List.length_cons]
    unfold scanRuns at hr
    split at hr
    · rename_i hb
      have := ih (n + 1) (by omega) (by simpa [hb] using hchange) r hr
      omega
    · obtain rfl | hr := List.mem_cons.mp hr
      · omega
      · have := List.le_sum_of_mem hr
        rw [sum_scanRuns] at this
        omega

/-- The scan of a frame begins inside the run of its bit 0. -/
theorem runsFromFrame_eq_scanRuns (f : Frame) :
    runsFromFrame f = scanRuns (f.getLsbD 0) 1 ((List.range' 1 10).map f.getLsbD) := by
  change scanRuns (f.getLsbD 0) 0 (f.getLsbD 0 :: (List.range' 1 10).map f.getLsbD) = _
  rw [scanRuns, if_pos rfl]

/-- A frame whose first and last bits differ has runs of 1 to 10 bits. -/
theorem mem_runsFromFrame_bounds (f : Frame) (hf : f.getLsbD 10 ≠ f.getLsbD 0) :
    ∀ r ∈ runsFromFrame f, 1 ≤ r ∧ r ≤ 10 := by
  intro r hr
  rw [runsFromFrame_eq_scanRuns] at hr
  refine ⟨pos_of_mem_scanRuns _ _ _ le_rfl r hr, ?_⟩
  have hchange : ∃ b ∈ (List.range' 1 10).map f.getLsbD, b ≠ f.getLsbD 0 :=
    ⟨f.getLsbD 10, List.mem_map_of_mem (by decide), hf⟩
  have := lt_of_mem_scanRuns _ _ _ le_rfl hchange r hr
  simp only [List.length_map, List.length_range'] at this
  omega

/-! ### The frame of a payload -/

/-- The masks of R121 build the frame of R82: start bit, nine payload bits, stop bit. -/
theorem frameFromPayload_eq_frameOf (e : Entry) : frameFromPayload (e.setWidth 32) = frameOf (e.setWidth 9) := by
  ext i hi
  interval_cases i <;> simp [frameFromPayload, frameOf]

theorem frameOf_startBit (p : Payload) : (frameOf p).getLsbD 0 = false := by simp [frameOf]

theorem frameOf_stopBit (p : Payload) : (frameOf p).getLsbD 10 = true := by simp [frameOf]

/-! ### The durations of a message -/

theorem runDuration_eq : runDuration = fun r => BitVec.ofNat 16 (208 * r) := by
  funext r
  refine BitVec.eq_of_toNat_eq ?_
  simp only [runDuration, bitLengthToTicks, BitVec.toNat_setWidth, BitVec.toNat_ofNat, Config.bitPeriodUs]
  omega

/-- The durations ENCODE_MESSAGE writes are those of the message's frames (R86, R119, R131). -/
theorem map_runDuration_messageRuns (ps : List Entry) :
    (messageRuns ps).map runDuration = frameDurations (messageFrames ps) := by
  simp only [messageRuns, frameDurations, messageFrames, List.map_flatMap, List.flatMap_map, payloadRuns,
    frameFromPayload_eq_frameOf, runDuration_eq]

theorem length_messageRuns (ps : List Entry) :
    (messageRuns ps).length = (frameDurations (messageFrames ps)).length := by
  rw [← map_runDuration_messageRuns, List.length_map]

theorem mem_messageRuns_bounds (ps : List Entry) : ∀ r ∈ messageRuns ps, 1 ≤ r ∧ r ≤ 10 := by
  intro r hr
  obtain ⟨p, _, hr⟩ := List.mem_flatMap.mp hr
  rw [payloadRuns, frameFromPayload_eq_frameOf] at hr
  refine mem_runsFromFrame_bounds _ ?_ r hr
  rw [frameOf_startBit, frameOf_stopBit]
  decide

/-- R85: what ENCODE_MESSAGE writes lies in 208 … 2080. -/
theorem readEntry_durations_bounds (ps : List Entry) (j : Nat) (hj : j < (messageRuns ps).length) :
    208 ≤ (readEntry ((messageRuns ps).map runDuration) j).toNat
      ∧ (readEntry ((messageRuns ps).map runDuration) j).toNat ≤ 2080 := by
  obtain ⟨hmin, hmax⟩ := mem_messageRuns_bounds ps _ (List.getElem_mem hj)
  have hentry : readEntry ((messageRuns ps).map runDuration) j = BitVec.ofNat 16 (208 * (messageRuns ps)[j]) := by
    simp [readEntry, runDuration_eq, hj]
  rw [hentry, BitVec.toNat_ofNat, Nat.mod_eq_of_lt (by omega)]
  omega

end Sys2Proof.Machine

/-! PROOFS. Three invariants of every step: the idle level (R14, R86), the Scheduler's timing (R85, R142, R148) and the
captured runs (R85, R87). -/

namespace Sys2Proof.Machine

/-! ### Which agent moves the engines -/

/-- A step is a TICK, a command, a host access that writes the port's data or an operand register at most, or a
reset. -/
theorem step_agent_cases (s t : State) (h : step s = .next t) :
    ∃ u : State, (∃ is n, u = { s with inputs := is, draws := n }) ∧
      ((∃ b, t = tick b u) ∨ (∃ i, exec i u = .next t)
        ∨ (∃ d a c v p, t = { u with readData := d, arg := a, runc := c, runv := v, payOut := p })
        ∨ t = resetInput u) := by
  obtain ⟨u, -, hu, hact⟩ := step_cases s t h
  refine ⟨u, hu, ?_⟩
  obtain ⟨b, _, ht⟩ | ⟨_, _, r, _, _, rfl⟩ | ⟨w, _, hexec⟩ | ⟨_, _, v, _, hwrite⟩ | ⟨_, ht⟩ := hact
  · exact .inl ⟨b, ht⟩
  · exact .inr (.inr (.inl ⟨_, _, _, _, _, rfl⟩))
  · exact .inr (.inl ⟨_, hexec⟩)
  · refine .inr (.inr (.inl ?_))
    obtain rfl | rfl | rfl | ⟨k, rfl⟩ | ⟨k, rfl⟩ := hwrite <;> exact ⟨_, _, _, _, _, rfl⟩
  · exact .inr (.inr (.inr ht))

/-! ### The idle level -/

/-- A run that starts leaves the cursor past it, so not at 0; a drain that completes drives the idle level (R147). -/
theorem txAct_idleLevel (s : State) : IdleLevel (txAct s) := by
  obtain ⟨hlt, e⟩ | ⟨_, e⟩ := txAct_cases s <;> rw [e]
  · intro hcur
    rw [startRun_txCur] at hcur
    have := s.txLen.isLt
    bv_omega
  · exact fun _ => rfl

theorem txStep_keeps_idleLevel (s : State) (hi : IdleLevel s) : IdleLevel (txStep s) := by
  obtain ⟨_, _, e⟩ | ⟨_, _, e⟩ | ⟨_, _, e⟩ | ⟨_, _, _, e⟩ | ⟨_, _, _, _, e⟩ | ⟨_, _, _, _, _, e⟩
    | ⟨_, _, _, _, _, e⟩ := txStep_cases s <;> rw [e]
  · exact txAct_idleLevel _
  · exact hi
  · exact hi
  · exact fun _ => rfl
  · exact txAct_idleLevel _
  · exact txAct_idleLevel s
  · exact hi

theorem tick_keeps_idleLevel (b : Level) (s : State) (hi : IdleLevel s) : IdleLevel (tick b s) :=
  txStep_keeps_idleLevel _ (by simpa [IdleLevel] using hi)

/-- No command drives the line or moves the cursor (R103). -/
theorem exec_keeps_idleLevel (i : Instr) (s t : State) (hi : IdleLevel s) (h : exec i s = .next t) :
    IdleLevel t := by
  rw [exec_frame i s t h]
  exact hi

/-- Settles O60, over the agents that can act in a step. -/
theorem everyStepKeepsTheIdleLevel : Obligations.EveryStepKeepsTheIdleLevel := by
  intro s t hi h
  obtain ⟨u, ⟨_, _, hu⟩, hact⟩ := step_agent_cases s t h
  have hidle : IdleLevel u := by rw [hu]; exact hi
  obtain ⟨b, rfl⟩ | ⟨i, hexec⟩ | ⟨_, _, _, _, _, rfl⟩ | rfl := hact
  · exact tick_keeps_idleLevel b u hidle
  · exact exec_keeps_idleLevel i u t hidle hexec
  · exact hidle
  · exact fun _ => rfl

/-! ### The Scheduler's timing -/

/-- Only an accepted ENCODE_MESSAGE touches what the timing speaks of, and the durations it writes are in range. -/
theorem exec_keeps_txTimed (i : Instr) (s t : State) (hs : Safe s) (ht : TxTimed s) (h : exec i s = .next t) :
    TxTimed t := by
  obtain ⟨hp, ⟨_, _, _, htxBuf, _⟩, _⟩ := hs
  have ⟨_, htimes⟩ := ht
  obtain ⟨r, v, rfl | ⟨_, rfl⟩ | ⟨_, _, ps, _, _, hfit, rfl⟩ | ⟨_, _, rfl⟩⟩ := exec_cases i s t h
  · exact ht
  · exact ht
  · refine ⟨fun j hj => ?_, htimes⟩
    have hlt : j < (messageRuns ps).length := hj.trans_le (Nat.mod_le _ _)
    have hread := readEntry_overwrite_lt s.txBuf ((messageRuns ps).map runDuration) j
      (by simpa [htxBuf] using hfit) (by simpa using hlt)
    have hbounds := readEntry_durations_bounds ps j hlt
    rw [← hread] at hbounds
    exact hbounds
  · exact ht

/-- After a reset nothing is queued and the first heartbeat is one message period ahead (R60). -/
theorem resetInput_txTimed (s : State) : TxTimed (resetInput s) := by
  simp [TxTimed, resetInput, State.resetWith, Config.msgPeriodUs]

/-- Settles O55, over the agents that can act in a step. -/
theorem everyStepKeepsTheSchedulerTimed : Obligations.EveryStepKeepsTheSchedulerTimed := by
  intro s t hs ht h
  obtain ⟨u, ⟨_, _, hu⟩, hact⟩ := step_agent_cases s t h
  have hsafe : Safe u := by rw [hu]; exact hs
  have htimed : TxTimed u := by rw [hu]; exact ht
  obtain ⟨b, rfl⟩ | ⟨i, hexec⟩ | ⟨_, _, _, _, _, rfl⟩ | rfl := hact
  · exact tick_keeps_txTimed b u hsafe htimed
  · exact exec_keeps_txTimed i u t hsafe htimed hexec
  · exact htimed
  · exact resetInput_txTimed u

/-! ### The captured runs -/

/-- Entries below `k` of an inbound buffer are measured runs. -/
def MeasuredBelow (buf : List Entry) (k : Nat) : Prop := ∀ j < k, measuredRun (readEntry buf j)

theorem rxContents_iff (s : State) : RxContents s ↔
    (s.rxCapt = true → MeasuredBelow s.rxBuf s.rxCur.toNat)
      ∧ (s.rxLen ≠ 0#16 → MeasuredBelow s.rxBuf (s.rxLen.toNat - 1)
          ∧ readEntry s.rxBuf (s.rxLen.toNat - 1) = capEntry) := Iff.rfl

/-- A write at `k` keeps the entries below it. -/
theorem MeasuredBelow.write {buf : List Entry} {k : Nat} (hm : MeasuredBelow buf k) (e : Entry) :
    MeasuredBelow (writeEntry buf k e) k := by
  intro j hj
  rw [readEntry_writeEntry_other _ _ _ _ hj.ne]
  exact hm j hj

/-- A measured run stored at `k` extends the measured runs below it. -/
theorem MeasuredBelow.store {buf : List Entry} {k : Nat} (hm : MeasuredBelow buf k) (e : Entry) (he : measuredRun e)
    (hk : k < buf.length) : MeasuredBelow (writeEntry buf k e) (k + 1) := by
  intro j hj
  obtain hlt | rfl := Nat.lt_succ_iff_lt_or_eq.mp hj
  · exact hm.write e j hlt
  · rw [readEntry_writeEntry_same _ _ _ hk]
    exact he

/-- An edge before the cap is a measured run (R162). -/
theorem measuredRun_ofNat (el : Nat) (hpos : 1 ≤ el) (hlt : el < Config.msgPeriodUs) :
    measuredRun (BitVec.ofNat 16 el) := by
  simp only [Config.msgPeriodUs] at hlt
  rw [measuredRun, BitVec.toNat_ofNat, Nat.mod_eq_of_lt (by omega)]
  exact ⟨hpos, hlt⟩

/-- With no capture in progress the contents are those of a published datagram: measured runs below `k`, and the cap
written at `k`, its last entry. -/
theorem rxContents_of_published (s : State) (buf : List Entry) (k : Nat) (hcapt : s.rxCapt = false)
    (hbuf : s.rxBuf = writeEntry buf k capEntry) (hlen : s.rxLen.toNat = k + 1) (hm : MeasuredBelow buf k)
    (hk : k < buf.length) : RxContents s := by
  rw [rxContents_iff, hbuf, hlen, Nat.add_sub_cancel]
  exact ⟨by simp [hcapt], fun _ => ⟨hm.write capEntry, readEntry_writeEntry_same _ _ _ hk⟩⟩

/-- R163 to R167: an edge appends the cap to the measured runs and publishes, begins with nothing stored, stores a
measured run, or leaves the buffer. -/
theorem rxEdge_keeps_rxContents (el : Nat) (s : State) (hs : Safe s) (hr : RxContents s) (hpos : 1 ≤ el)
    (hle : el ≤ Config.msgPeriodUs) : RxContents (rxEdge el s) := by
  obtain ⟨hp, ⟨_, _, _, _, hrxBuf⟩, _, ⟨hcapt, hcur, _⟩, _⟩ := hs
  obtain ⟨hcapMin, hcapMax, _⟩ := (params_wellFormed_iff _).mp hp
  have hroom : s.rxCur.toNat < s.rxBuf.length := by omega
  have hsucc : (s.rxCur + 1#16).toNat = s.rxCur.toNat + 1 := by
    rw [BitVec.toNat_add, BitVec.toNat_ofNat]; omega
  obtain ⟨_, hon, e⟩ | ⟨_, hoff, hfree, e⟩ | ⟨_, _, _, e⟩ | ⟨hne, hon, _, e⟩ | ⟨_, hon, hfull, e⟩ | ⟨_, _, e⟩ :=
    rxEdge_cases el s <;> rw [e]
  · exact rxContents_of_published _ s.rxBuf s.rxCur.toNat rfl rfl hsucc (hr.1 hon) hroom
  · exact ⟨fun _ _ hj => absurd hj (Nat.not_lt_zero _), fun hlen => absurd hfree hlen⟩
  · exact hr
  · refine ⟨fun _ => ?_, fun hlen => absurd (hcapt hon) hlen⟩
    have hstored := MeasuredBelow.store (hr.1 hon) _ (measuredRun_ofNat el hpos (lt_of_le_of_ne hle hne)) hroom
    rw [← hsucc] at hstored
    exact hstored
  · have hlast : s.params.runbufCap - 1 = s.rxCur.toNat := Nat.le_antisymm hfull hcur
    have hlen : (rxOverrun s).rxLen.toNat = s.rxCur.toNat + 1 := by
      rw [rxOverrun_rxLen, BitVec.toNat_ofNat]; omega
    exact rxContents_of_published _ s.rxBuf s.rxCur.toNat rfl (by rw [rxOverrun_rxBuf, hlast]) hlen (hr.1 hon) hroom
  · exact hr

theorem rxStep_keeps_rxContents (b : Level) (s : State) (hs : Safe s) (hr : RxContents s) :
    RxContents (rxStep b s) := by
  obtain ⟨_, e⟩ | ⟨_, e⟩ := rxStep_cases b s <;> rw [e]
  · exact rxEdge_keeps_rxContents _ _ (safe_of_sample hs b 0 (Nat.zero_le _)) hr (one_le_rxElapsedNow s)
      (rxElapsedNow_le s)
  · exact hr

/-- The Scheduler's half of a tick leaves the Receive Capture Engine's elements (R141). -/
theorem txStep_keeps_rxContents (s : State) (hr : RxContents s) : RxContents (txStep s) := by
  rw [txStep_frame]
  exact hr

theorem tick_keeps_rxContents (b : Level) (s : State) (hs : Safe s) (hr : RxContents s) : RxContents (tick b s) :=
  txStep_keeps_rxContents _ (rxStep_keeps_rxContents b _ (safe_advanceTime_iff.mpr hs) hr)

/-- No command writes RX_BUF or its cursor; DECODE_MESSAGE hands the datagram back (R73). -/
theorem exec_keeps_rxContents (i : Instr) (s t : State) (hr : RxContents s) (h : exec i s = .next t) :
    RxContents t := by
  obtain ⟨_, hlen⟩ := exec_inbound i s t h
  rw [exec_frame i s t h]
  obtain hkept | ⟨h0, _⟩ := hlen
  · rw [hkept]
    exact hr
  · exact ⟨hr.1, fun hne => absurd h0 hne⟩

/-- Settles O56, over the agents that can act in a step; a reset abandons a capture and a datagram. -/
theorem everyStepKeepsTheCapturedRuns : Obligations.EveryStepKeepsTheCapturedRuns := by
  intro s t hs hr h
  obtain ⟨u, ⟨_, _, hu⟩, hact⟩ := step_agent_cases s t h
  have hsafe : Safe u := by rw [hu]; exact hs
  have hcontents : RxContents u := by rw [hu]; exact hr
  obtain ⟨b, rfl⟩ | ⟨i, hexec⟩ | ⟨_, _, _, _, _, rfl⟩ | rfl := hact
  · exact tick_keeps_rxContents b u hsafe hcontents
  · exact exec_keeps_rxContents i u t hcontents hexec
  · exact hcontents
  · exact ⟨nofun, fun hne => absurd rfl hne⟩

end Sys2Proof.Machine

/-! PROOFS. TRY_SEND (R107, R131): what its writes leave in PAY_OUT, which message ENCODE_MESSAGE finds there, and when
it takes it. -/

namespace Sys2Proof.Machine

/-! ### The writes to PAY_OUT -/

theorem afterAct_of_next (i : Input) (s t : State) (h : act i s = .next t) : afterAct i s = t := by
  rw [afterAct, h]

/-- A write to the entry after `pre` replaces the entry there. -/
theorem writeEntry_append_cons (pre old : List Entry) (o e : Entry) :
    writeEntry (pre ++ o :: old) pre.length e = (pre ++ [e]) ++ old := by
  simp [writeEntry]

/-- The writes of `es` behind the entries `pre` replace the first entries after them (R107). -/
theorem afterActs_payOutWrites (es pre old : List Entry) (s : State) (hp : s.params.wellFormed = true)
    (hcap : (pre ++ old).length ≤ s.params.msgCap + 1) (hpayOut : s.payOut = pre ++ old)
    (hfit : es.length ≤ old.length) :
    afterActs (payOutWrites pre.length es) s = { s with payOut := pre ++ overwrite old es } := by
  induction es generalizing pre old s with
  | nil =>
    have hkept : overwrite old [] = old := by cases old <;> rfl
    rw [hkept, ← hpayOut]
    rfl
  | cons e es ih =>
    cases old with
    | nil => simp at hfit
    | cons o old =>
      have himpl : implemented s.params (.payOut pre.length) = true := by
        simp only [List.length_append, List.length_cons] at hcap
        exact decide_eq_true (by omega)
      have hact : act (wr (.payOut pre.length) (e.setWidth 32)) s = .next { s with payOut := (pre ++ [e]) ++ old } := by
        rw [act_wr s hp _ himpl, writeReg, hpayOut, writeEntry_append_cons]
        simp
      have hrest := ih (pre ++ [e]) old { s with payOut := (pre ++ [e]) ++ old } hp (by simpa using hcap) rfl
        (by simpa using hfit)
      rw [payOutWrites, afterActs, afterAct_of_next _ _ _ hact]
      simpa [overwrite] using hrest

/-- TRY_SEND of a sequence that fits PAY_OUT with its terminator: ENCODE_MESSAGE on the state with PAY_OUT written, and
the RESULT it leaves on the read port. -/
theorem afterActs_trySend (ps : List Entry) (s t : State) (hs : Safe s) (hps : ps.length ≤ s.params.msgCap)
    (h : exec .encodeMessage { s with payOut := overwrite s.payOut (ps ++ [Config.terminator]) } = .next t) :
    afterActs (trySend ps) s = { t with readData := resultWord t.result } := by
  obtain ⟨hp, ⟨_, hpayOut, _⟩, _⟩ := hs
  have hwrites := afterActs_payOutWrites (ps ++ [Config.terminator]) [] s.payOut s hp hpayOut.le rfl
    (by simpa [hpayOut] using hps)
  have hcmd := (act_wrCmd (encode .encodeMessage) _).trans ((congrArg (exec · _) (decode_encode _ rfl)).trans h)
  rw [trySend, afterActs_append]
  simp only [List.length_nil, List.nil_append] at hwrites
  rw [hwrites, afterActs, cmd, afterAct_of_next _ _ _ hcmd, afterActs, afterAct_of_next _ _ _ (act_rd_result t)]
  rfl

/-! ### The message found, and whether it is taken -/

/-- The first entry 0xFFFF ends the message, one of the payloads or the terminator after them (R83, R131). -/
theorem untilTerminator_append_terminator (ps rest : List Entry) :
    untilTerminator (ps ++ Config.terminator :: rest) = some (ps.takeWhile (· != Config.terminator)) := by
  induction ps with
  | nil => simp [untilTerminator]
  | cons p ps ih =>
    by_cases hp : p = Config.terminator
    · simp [untilTerminator, hp]
    · simp [untilTerminator, hp, ih]

/-- The checks of ENCODE_MESSAGE are R83's definition of a well-formed message, for a message within the capacity. -/
theorem wellFormedMessage_iff (cap : Nat) (ps : List Entry) (hcap : ps.length ≤ cap) :
    wellFormedMessage ps = true ↔ ValidMessage cap ps := by
  cases ps with
  | nil => simp [wellFormedMessage, ValidMessage]
  | cons p ps =>
    have hlt : ps.length < cap := hcap
    simp [wellFormedMessage, ValidMessage, marker, Config.maxPayload, and_assoc, hlt]

/-- ENCODE_MESSAGE takes a well-formed message that fits when the buffer is free. -/
theorem encodeMessage_accepts (s : State) (qs : List Entry) (hfree : s.txLen = 0#16)
    (hout : outboundPayloads s = some qs) (hwf : wellFormedMessage qs = true)
    (hfit : (messageRuns qs).length ≤ s.params.runbufCap) :
    exec .encodeMessage s = acceptMessage (messageRuns qs) s := by
  change execEncodeMessage s = _
  simp [execEncodeMessage, hfree, hout, hwf, Nat.not_lt.mpr hfit]

/-- Otherwise it refuses with a code that is not OK and leaves the outbound buffer. -/
theorem encodeMessage_refuses (s : State) (qs : List Entry) (hout : outboundPayloads s = some qs)
    (hrefuse : s.txLen ≠ 0#16 ∨ ¬ wellFormedMessage qs = true ∨ s.params.runbufCap < (messageRuns qs).length) :
    ∃ c, c ≠ .ok ∧ exec .encodeMessage s = refuseWith c s := by
  change ∃ c, c ≠ .ok ∧ execEncodeMessage s = refuseWith c s
  obtain ⟨_, e⟩ | ⟨_, _, e⟩ | ⟨hfree, ps, hps, ⟨_, e⟩ | ⟨_, _, e⟩ | ⟨hwf, hfit, _⟩⟩ := execEncodeMessage_cases s
  · exact ⟨.busy, nofun, e⟩
  · exact ⟨.malformed, nofun, e⟩
  · exact ⟨.malformed, nofun, e⟩
  · exact ⟨.tooLong, nofun, e⟩
  · obtain rfl : qs = ps := Option.some.inj (hout.symm.trans hps)
    obtain hbusy | hbad | hlong := hrefuse
    · exact absurd hfree hbusy
    · exact absurd hwf hbad
    · exact absurd hfit (Nat.not_le.mpr hlong)

/-- After TRY_SEND's writes the message in PAY_OUT is the payloads before the first 0xFFFF. -/
theorem outboundPayloads_of_written (ps : List Entry) (s : State) (hs : Safe s) (hps : ps.length ≤ s.params.msgCap) :
    outboundPayloads { s with payOut := overwrite s.payOut (ps ++ [Config.terminator]) }
      = some (ps.takeWhile (· != Config.terminator)) := by
  obtain ⟨_, ⟨_, hpayOut, _⟩, _⟩ := hs
  have hlen : (overwrite s.payOut (ps ++ [Config.terminator])).length ≤ s.params.msgCap + 1 := by
    rw [length_overwrite, hpayOut]
  have hfit : (ps ++ [Config.terminator]).length ≤ s.payOut.length := by simpa [hpayOut] using hps
  simp only [outboundPayloads]
  rw [List.take_of_length_le hlen, overwrite_eq_append_drop _ _ hfit, List.append_assoc, List.singleton_append,
    untilTerminator_append_terminator]

/-- Settles O32: RESULT as read after TRY_SEND is that of ENCODE_MESSAGE on the message its writes put in PAY_OUT. -/
theorem trySendAnswersWhetherTheMessageWasTaken : Obligations.TrySendAnswersWhetherTheMessageWasTaken := by
  intro s ps qs hs hps hqs
  have hout := outboundPayloads_of_written ps s hs hps
  rw [show ps.takeWhile (· != Config.terminator) = qs from hqs.symm] at hout
  have hcap : qs.length ≤ s.params.msgCap := hqs ▸ (List.takeWhile_sublist _).length_le.trans hps
  have hwf := wellFormedMessage_iff s.params.msgCap qs hcap
  rw [← length_messageRuns, ← map_runDuration_messageRuns, ← hwf]
  refine ⟨fun hfree hvalid hfit => ?_, fun hrefuse => ?_⟩
  · have ⟨hp, ⟨_, _, _, htxBuf, _⟩, _⟩ := hs
    obtain ⟨_, hcapMax, _⟩ := (params_wellFormed_iff _).mp hp
    rw [afterActs_trySend ps s _ hs hps (encodeMessage_accepts _ qs hfree hout hvalid hfit)]
    refine ⟨(accepted_resultWord _).mpr rfl, Nat.mod_eq_of_lt (by omega), ?_⟩
    change (overwrite s.txBuf ((messageRuns qs).map runDuration)).take (messageRuns qs).length = _
    rw [overwrite_eq_append_drop _ _ (by simpa [htxBuf] using hfit)]
    exact List.take_left' (List.length_map _)
  · obtain ⟨c, hc, hexec⟩ := encodeMessage_refuses _ qs hout hrefuse
    rw [afterActs_trySend ps s _ hs hps hexec]
    exact ⟨Bool.eq_false_iff.mpr fun hacc => hc ((accepted_resultWord _).mp hacc), rfl, rfl⟩

end Sys2Proof.Machine

/-! PROOFS. The bit-run transcoder (R112 to R120): the scan of a frame and the expansion of a run list undo each other,
what the four commands answer, and law 2 of R120. -/

namespace Sys2Proof.Machine

/-! ### The two duration commands -/

/-- R117: the quotient, rounded half up, is the quotient of the duration shifted by half a bit. -/
theorem ticksToBitLength_eq_div (d : Nat) : ticksToBitLength d = (d + 104) / 208 := by
  unfold ticksToBitLength Config.bitPeriodUs Config.halfBitUs
  split <;> omega

/-- Settles O5: rounding half up is a division, and its quotient fits RES. -/
theorem ticksToBitLengthRoundsHalfUp : Obligations.TicksToBitLengthRoundsHalfUp := by
  intro s
  refine ⟨BitVec.ofNat 32 (ticksToBitLength (argNumber s)), rfl, ?_⟩
  have harg := s.arg.isLt
  rw [ticksToBitLength_eq_div, argNumber, BitVec.toNat_ofNat, Nat.mod_eq_of_lt (by omega)]
  omega

/-- Settles O6: the product is taken modulo the width of RES. -/
theorem bitLengthToTicksMultiplies : Obligations.BitLengthToTicksMultiplies := fun s =>
  ⟨bitLengthToTicks (argNumber s), rfl, BitVec.toNat_ofNat _ _⟩

/-! ### The runs of a frame -/

theorem runLevel_succ (j : Nat) : runLevel (j + 1) = !runLevel j := by
  obtain h | h := Nat.mod_two_eq_zero_or_one j <;> simp [runLevel, Nat.add_mod, h]

/-- Expanding a scan gives back the bits scanned, for a scan that starts `n` bits into run `j`: `m` says whether the
levels of the bits and of the runs are opposite, which every change of level keeps. -/
theorem map_xor_expandRuns_scanRuns (m v : Level) (n j : Nat) (bs : List Level) (hv : (runLevel j ^^ m) = v) :
    (expandRuns j (scanRuns v n bs)).map (· ^^ m) = List.replicate n v ++ bs := by
  induction bs generalizing v n j with
  | nil => simp [scanRuns, expandRuns, hv]
  | cons b bs ih =>
    unfold scanRuns
    split
    · rename_i hb
      rw [ih v (n + 1) j hv, List.replicate_succ', hb, List.append_assoc, List.singleton_append]
    · rename_i hb
      have hnext : (runLevel (j + 1) ^^ m) = b := by
        rw [runLevel_succ, Bool.not_xor, hv]
        exact (Bool.eq_not_of_ne hb).symm
      rw [expandRuns, List.map_append, ih b 1 (j + 1) hnext, List.map_replicate, hv]
      rfl

/-- R113: the runs of a frame expand to its bits, from the level of bit 0. -/
theorem map_xor_expandRuns_runsFromFrame (f : Frame) :
    (expandRuns 0 (runsFromFrame f)).map (· ^^ f.getLsbD 0) = frameBits f :=
  map_xor_expandRuns_scanRuns _ _ 0 0 _ (Bool.false_xor _)

theorem getElem?_frameBits (f : Frame) (i : Nat) (hi : i < 11) : (frameBits f)[i]? = some (f.getLsbD i) := by
  simp [frameBits, Config.frameBits, hi]

theorem sum_runsFromFrame (f : Frame) : (runsFromFrame f).sum = 11 := by
  rw [runsFromFrame, sum_scanRuns, length_frameBits]

theorem pos_of_mem_runsFromFrame (f : Frame) : ∀ r ∈ runsFromFrame f, 1 ≤ r := by
  rw [runsFromFrame_eq_scanRuns]
  exact pos_of_mem_scanRuns _ _ _ le_rfl

theorem length_runsFromFrame_pos (f : Frame) : 1 ≤ (runsFromFrame f).length := length_scanRuns_pos _ _ _

theorem length_runsFromFrame_le_frameBits (f : Frame) : (runsFromFrame f).length ≤ 11 := by
  rw [runsFromFrame_eq_scanRuns]
  exact length_scanRuns_le _ _ _

theorem getLsbD_argFrame (s : State) (i : Nat) (hi : i < 11) : (argFrame s).getLsbD i = s.arg.getLsbD i := by
  simp [argFrame, hi]

/-- The whole next state of RUNS_FROM_FRAME (R112), for RUNV with its 16 entries. -/
theorem exec_runsFromFrame (s : State) (h : s.runv.length = 16) :
    exec .runsFromFrame s = .next
      { s with
        runv := (runsFromFrame (argFrame s)).map (BitVec.ofNat 16) ++ s.runv.drop (runsFromFrame (argFrame s)).length
        runc := BitVec.ofNat 5 (runsFromFrame (argFrame s)).length
        res := BitVec.ofNat 32 (runsFromFrame (argFrame s)).length
        result := ⟨.ok, false, false, false, false⟩ } := by
  have hfit : ((runsFromFrame (argFrame s)).map (BitVec.ofNat 16)).length ≤ s.runv.length := by
    have := length_runsFromFrame_le_frameBits (argFrame s)
    rw [List.length_map, h]
    omega
  have hrunv := overwrite_eq_append_drop s.runv _ hfit
  rw [List.length_map] at hrunv
  rw [← hrunv]
  rfl

/-- Settles O3: the runs are those of the scan, whose expansion is the frame. -/
theorem runsFromFrameWritesTheMaximalRuns : Obligations.RunsFromFrameWritesTheMaximalRuns := by
  intro s h
  refine ⟨runsFromFrame (argFrame s), pos_of_mem_runsFromFrame _, sum_runsFromFrame _, length_runsFromFrame_pos _,
    length_runsFromFrame_le_frameBits _, fun i hi => ?_, exec_runsFromFrame s h⟩
  rw [← getLsbD_argFrame s 0 (by decide), map_xor_expandRuns_runsFromFrame, getElem?_frameBits _ i hi,
    getLsbD_argFrame s i hi]

/-! ### The frame of a run list -/

/-- The sum of R115, `Σ bits[i] << i`, is the number with these bits. -/
theorem sum_bits_eq_ofBits (bit : Nat → Level) (n : Nat) :
    ((List.range n).map fun i => (bit i).toNat * 2 ^ i).sum = Nat.ofBits fun i : Fin n => bit i := by
  induction n generalizing bit with
  | zero => rfl
  | succ n ih =>
    have htail := ih fun i => bit (i + 1)
    rw [Nat.ofBits_succ]
    simp [List.range_succ_eq_map, Function.comp_def, ← htail, Nat.pow_succ', Nat.mul_left_comm _ 2,
      List.sum_map_mul_left, Nat.add_comm]

theorem getLsbD_frameOfBits (bit : Nat → Level) (i : Nat) (hi : i < 11) : (frameOfBits bit).getLsbD i = bit i := by
  rw [frameOfBits, sum_bits_eq_ofBits, BitVec.getLsbD_ofNat, Nat.testBit_ofBits_lt _ i hi, decide_eq_true hi,
    Bool.true_and]

/-- Bit `i` of the frame of a run list is bit `i` of its expansion, or the final run's level beyond it (R115). -/
theorem getLsbD_frameFromRuns (rs : List Nat) (hrs : rs ≠ []) (i : Nat) (hi : i < 11) :
    (frameFromRuns rs).getLsbD i = (expandRuns 0 rs).getD i (runLevel (rs.length - 1)) := by
  rw [frameFromRuns, if_neg hrs, getLsbD_frameOfBits _ i hi]

/-- The bits that run `j` covers have the level of `j` (R84). -/
theorem getElem?_expandRuns (rs : List Nat) (j i : Nat) (hj : j < rs.length) (hlo : (rs.take j).sum ≤ i)
    (hhi : i < (rs.take (j + 1)).sum) : (expandRuns 0 rs)[i]? = some (runLevel j) := by
  rw [List.sum_take_succ _ _ hj] at hhi
  have hsplit : expandRuns 0 rs
      = expandRuns 0 (rs.take j) ++ (List.replicate rs[j] (runLevel j) ++ expandRuns (j + 1) (rs.drop (j + 1))) := by
    conv_lhs => rw [← List.take_append_drop j rs, List.drop_eq_getElem_cons hj, expandRuns_append]
    rw [List.length_take, Nat.min_eq_left hj.le, Nat.zero_add, expandRuns]
  have hlen := length_expandRuns 0 (rs.take j)
  rw [hsplit, List.getElem?_append_right (by omega), List.getElem?_append_left (by rw [List.length_replicate]; omega),
    List.getElem?_replicate, if_pos (by omega)]

/-- Settles O4: each bit of the frame is one of the expansion, or of the padding. -/
theorem frameFromRunsExpandsTheRuns : Obligations.FrameFromRunsExpandsTheRuns := by
  intro s rs hlist
  obtain rfl : rs = runList s := hlist
  refine ⟨frameFromRuns (runList s), rfl, fun hnil => if_pos hnil, fun j hj i hi hlo hhi => ?_,
    fun hrs i hi hbeyond => ?_⟩
  · have hrs : runList s ≠ [] := List.ne_nil_of_length_pos (Nat.zero_lt_of_lt hj)
    rw [getLsbD_frameFromRuns _ hrs i hi, List.getD_eq_getElem?_getD, getElem?_expandRuns _ j i hj hlo hhi]
    rfl
  · rw [getLsbD_frameFromRuns _ hrs i hi,
      List.getD_eq_default _ _ ((length_expandRuns _ _).trans_le hbeyond)]
    rfl

/-! ### There and back -/

/-- The frame that the runs of `f` give is `f` with every bit read from the level of bit 0. -/
theorem getLsbD_frameFromRuns_runsFromFrame (f : Frame) (i : Nat) (hi : i < 11) :
    (frameFromRuns (runsFromFrame f)).getLsbD i = (f.getLsbD i ^^ f.getLsbD 0) := by
  have hbit : ((expandRuns 0 (runsFromFrame f))[i]?).map (· ^^ f.getLsbD 0) = some (f.getLsbD i) := by
    rw [← List.getElem?_map, map_xor_expandRuns_runsFromFrame, getElem?_frameBits f i hi]
  obtain ⟨b, hb, hbf⟩ := Option.map_eq_some_iff.mp hbit
  rw [getLsbD_frameFromRuns _ (List.ne_nil_of_length_pos (length_runsFromFrame_pos f)) i hi,
    List.getD_eq_getElem?_getD, hb, ← hbf]
  simp

/-- Law 2 of R120 for the pure functions. -/
theorem frameFromRuns_runsFromFrame_eq_iff (f : Frame) :
    frameFromRuns (runsFromFrame f) = f ↔ f.getLsbD 0 = false := by
  constructor
  · intro h
    have hbit := getLsbD_frameFromRuns_runsFromFrame f 0 (by decide)
    rwa [h, Bool.xor_self] at hbit
  · intro h
    refine BitVec.eq_of_getLsbD_eq fun i hi => ?_
    rw [getLsbD_frameFromRuns_runsFromFrame f i hi, h, Bool.xor_false]

/-- A run list written to RUNV and RUNC is the one FRAME_FROM_RUNS reads, when its lengths fit the elements. -/
theorem runList_of_written (s : State) (rs : List Nat) (tail : List Entry) (hlen : rs.length < 32)
    (hfit : ∀ r ∈ rs, r < 2 ^ 16) (hrunv : s.runv = rs.map (BitVec.ofNat 16) ++ tail)
    (hrunc : s.runc = BitVec.ofNat 5 rs.length) : runList s = rs := by
  have hback : ∀ r ∈ rs, (BitVec.ofNat 16 r).toNat = r := fun r hr => Nat.mod_eq_of_lt (hfit r hr)
  rw [runList, hrunv, hrunc, BitVec.toNat_ofNat, Nat.mod_eq_of_lt hlen, List.take_left' (List.length_map _),
    List.map_map]
  exact (List.map_congr_left hback).trans (List.map_id' rs)

/-- A frame is told from its register value. -/
theorem setWidth_frame_injective : Function.Injective fun f : Frame => f.setWidth 32 :=
  Function.LeftInverse.injective (g := BitVec.setWidth 11) fun f => by simp

theorem setWidth_argFrame (s : State) : (argFrame s).setWidth 32 = s.arg &&& 0x7FF#32 := by
  refine BitVec.eq_of_getLsbD_eq fun i hi => ?_
  interval_cases i <;> simp [argFrame]

/-- Settles O14: FRAME_FROM_RUNS reads the runs RUNS_FROM_FRAME wrote, and the pure functions obey law 2. -/
theorem runsAndFramesInvertWhenStartBitIsZero : Obligations.RunsAndFramesInvertWhenStartBitIsZero := by
  intro s h
  have hlen := length_runsFromFrame_le_frameBits (argFrame s)
  have hfit : ∀ r ∈ runsFromFrame (argFrame s), r < 2 ^ 16 := fun r hr => by
    have := List.le_sum_of_mem hr
    rw [sum_runsFromFrame] at this
    omega
  refine ⟨_, _, exec_runsFromFrame s h, rfl, ?_⟩
  rw [setResult_res, setRes_res, runList_of_written _ _ _ (by omega) hfit rfl rfl, ← setWidth_argFrame,
    setWidth_frame_injective.eq_iff, frameFromRuns_runsFromFrame_eq_iff, getLsbD_argFrame s 0 (by decide)]

end Sys2Proof.Machine

/-! PROOFS. The frame codec (R121 to R127): the masks of its two formulas read bit by bit, what the two commands answer,
that framing and unframing undo each other on valid frames, and the parity of a valid frame's runs. -/

namespace Sys2Proof.Machine

/-! ### The formulas, bit by bit -/

/-- A mask of `n` ones keeps the bits below `n`. -/
theorem getLsbD_lowMask (w n i : Nat) :
    (BitVec.ofNat w (2 ^ n - 1)).getLsbD i = (decide (i < w) && decide (i < n)) := by
  rw [BitVec.getLsbD_ofNat, Nat.testBit_two_pow_sub_one]

/-- R121: start bit 0, the payload's low nine bits, stop bit 1. -/
theorem getLsbD_frameFromPayload (p : Word) (i : Nat) :
    (frameFromPayload p).getLsbD i = (i == 10 || (decide (1 ≤ i ∧ i ≤ 9) && p.getLsbD (i - 1))) := by
  have hmask : (0x03FF#32).getLsbD i = (decide (i < 32) && decide (i < 10)) := getLsbD_lowMask 32 10 i
  have hstop : (0x0400#32).getLsbD i = (decide (10 < 32) && decide (10 = i)) := BitVec.getLsbD_twoPow 10 i
  simp only [frameFromPayload, BitVec.getLsbD_setWidth, BitVec.getLsbD_or, BitVec.getLsbD_and,
    BitVec.getLsbD_shiftLeft, hmask, hstop]
  grind

/-- R123: the payload is bits 9:1. -/
theorem getLsbD_framePayload (f : Word) (i : Nat) :
    (framePayload f).getLsbD i = (decide (i < 9) && f.getLsbD (i + 1)) := by
  have hmask : (0x01FF#32).getLsbD i = (decide (i < 32) && decide (i < 9)) := getLsbD_lowMask 32 9 i
  simp only [framePayload, BitVec.getLsbD_setWidth, BitVec.getLsbD_and, BitVec.getLsbD_ushiftRight, hmask]
  grind

/-- A mask of one bit tests that bit. -/
theorem and_twoPow_ne_zero (x : Word) (i : Nat) (hi : i < 32) :
    (x &&& BitVec.twoPow 32 i != 0#32) = x.getLsbD i := by
  rw [BitVec.and_twoPow]
  cases hx : x.getLsbD i with
  | false => rfl
  | true =>
    refine bne_iff_ne.mpr fun hzero => ?_
    have hbit := congrArg (BitVec.getLsbD · i) hzero
    simp [hi] at hbit

/-- R123: a frame is valid when its start bit is 0 and its stop bit is 1. -/
theorem frameValid_eq (f : Word) : frameValid f = (!f.getLsbD 0 && f.getLsbD 10) := by
  rw [← and_twoPow_ne_zero f 0 (by decide), ← and_twoPow_ne_zero f 10 (by decide), bne, Bool.not_not]
  rfl

/-! ### The two commands -/

/-- The whole next state of FRAME_FROM_PAYLOAD (R122). -/
theorem exec_frameFromPayload (s : State) :
    exec .frameFromPayload s = .next
      { s with
        res := (frameFromPayload s.arg).setWidth 32
        result := ⟨.ok, false, false, false, false⟩ } := rfl

/-- The whole next state of PAYLOAD_FROM_FRAME (R124). -/
theorem exec_payloadFromFrame (s : State) :
    exec .payloadFromFrame s = .next
      { s with
        res := (framePayload s.arg).setWidth 32
        result := ⟨.ok, frameValid s.arg, false, false, false⟩ } := rfl

/-- Settles O7: RES is the frame, bit by bit. -/
theorem frameFromPayloadFramesLowNineBits : Obligations.FrameFromPayloadFramesLowNineBits := by
  intro s
  refine ⟨_, exec_frameFromPayload s, fun i hi => ?_⟩
  rw [BitVec.getLsbD_setWidth, decide_eq_true hi, Bool.true_and, getLsbD_frameFromPayload]

/-- Settles O8: RES is the payload, bit by bit, and VALID is the test of the start and stop bits. -/
theorem payloadFromFrameExtractsAndValidates : Obligations.PayloadFromFrameExtractsAndValidates := by
  intro s
  refine ⟨(framePayload s.arg).setWidth 32, ?_, fun i hi => ?_⟩
  · rw [exec_payloadFromFrame, frameValid_eq]
  · rw [BitVec.getLsbD_setWidth, decide_eq_true hi, Bool.true_and, getLsbD_framePayload]

/-! ### There and back -/

/-- Whatever is framed makes a valid frame. -/
theorem frameValid_frameFromPayload (p : Word) : frameValid ((frameFromPayload p).setWidth 32) = true := by
  rw [frameValid_eq, BitVec.getLsbD_setWidth, BitVec.getLsbD_setWidth, getLsbD_frameFromPayload,
    getLsbD_frameFromPayload]
  rfl

/-- R125: unframing gives the low nine bits of what was framed. -/
theorem framePayload_frameFromPayload (p : Word) :
    framePayload ((frameFromPayload p).setWidth 32) = p.setWidth 9 := by
  refine BitVec.eq_of_getLsbD_eq fun i hi => ?_
  rw [getLsbD_framePayload, BitVec.getLsbD_setWidth, getLsbD_frameFromPayload, BitVec.getLsbD_setWidth]
  grind

/-- R126: framing the payload of a valid 11-bit frame gives the frame back. -/
theorem frameFromPayload_framePayload (f : Word) (hf : f.toNat < 2 ^ 11) (hvalid : frameValid f = true) :
    (frameFromPayload ((framePayload f).setWidth 32)).setWidth 32 = f := by
  rw [frameValid_eq, Bool.and_eq_true, Bool.not_eq_true'] at hvalid
  obtain ⟨hstart, hstop⟩ := hvalid
  refine BitVec.eq_of_getLsbD_eq fun i hi => ?_
  have hhigh : 11 ≤ i → f.getLsbD i = false := fun h =>
    Nat.testBit_lt_two_pow (hf.trans_le (Nat.pow_le_pow_right (by decide) h))
  simp only [BitVec.getLsbD_setWidth, getLsbD_frameFromPayload, getLsbD_framePayload]
  grind

/-- Settles O15: the frame read back is the one just made. -/
theorem payloadComesBackFromItsFrame : Obligations.PayloadComesBackFromItsFrame := by
  intro s harg
  refine ⟨_, _, exec_frameFromPayload s, exec_payloadFromFrame _, ?_, frameValid_frameFromPayload s.arg⟩
  change (framePayload ((frameFromPayload s.arg).setWidth 32)).setWidth 32 = s.arg
  rw [framePayload_frameFromPayload]
  refine BitVec.eq_of_toNat_eq ?_
  rw [BitVec.toNat_setWidth, BitVec.toNat_setWidth]
  omega

/-- R126: the frame of a payload as a number, `0x400 | (p << 1)`. -/
theorem toNat_frameFromPayload (p : Word) : (frameFromPayload p).toNat = 0x400 + 2 * (p.toNat % 512) := by
  have hor : 2 * (p.toNat % 512) ||| 2 ^ 10 = 2 ^ 10 * 1 + 2 * (p.toNat % 512) := by
    rw [Nat.two_pow_add_eq_or_of_lt (by omega), Nat.mul_one, Nat.or_comm]
  have hmask : (p <<< 1 &&& 0x03FF#32).toNat = 2 * (p.toNat % 512) := by
    rw [BitVec.toNat_and, BitVec.toNat_shiftLeft]
    change _ &&& (2 ^ 10 - 1) = _
    rw [Nat.and_two_pow_sub_one_eq_mod]
    omega
  rw [frameFromPayload, BitVec.toNat_setWidth, BitVec.toNat_or, hmask]
  change (_ ||| 2 ^ 10) % _ = _
  omega

/-- R126: an 11-bit frame is valid exactly when framing its payload gives it back. -/
theorem frameValid_iff_frameFromPayload_framePayload (f : Word) (hf : f.toNat < 2 ^ 11) :
    frameValid f = true ↔ (frameFromPayload ((framePayload f).setWidth 32)).setWidth 32 = f := by
  refine ⟨frameFromPayload_framePayload f hf, fun h => ?_⟩
  rw [← h]
  exact frameValid_frameFromPayload _

/-- R126: the valid 11-bit frames are the framed payloads, 512 numbers. -/
theorem frameValid_iff_exists_payload (f : Word) (hf : f.toNat < 2 ^ 11) :
    frameValid f = true ↔ ∃ p : Nat, p < 512 ∧ f.toNat = 0x400 + 2 * p := by
  constructor
  · intro hvalid
    have hback := congrArg BitVec.toNat (frameFromPayload_framePayload f hf hvalid)
    rw [BitVec.toNat_setWidth_of_le (by decide), toNat_frameFromPayload] at hback
    exact ⟨_, Nat.mod_lt _ (by decide), hback.symm⟩
  · rintro ⟨p, hp, hfp⟩
    have hframe : f = (frameFromPayload (BitVec.ofNat 32 p)).setWidth 32 := by
      refine BitVec.eq_of_toNat_eq ?_
      rw [BitVec.toNat_setWidth_of_le (by decide), toNat_frameFromPayload, BitVec.toNat_ofNat]
      omega
    rw [hframe]
    exact frameValid_frameFromPayload _

/-- Settles O16: VALID is the validity of the frame, which R126 characterises twice. -/
theorem validFramesAreTheFramedPayloads : Obligations.ValidFramesAreTheFramedPayloads := fun s harg =>
  ⟨_, _, exec_payloadFromFrame s, exec_frameFromPayload _, frameValid_iff_frameFromPayload_framePayload s.arg harg,
    frameValid_iff_exists_payload s.arg harg⟩

/-! ### The runs of a valid frame -/

/-- The number of runs of a scan is odd exactly when it ends at the level it began with: each further run is a change
of level. -/
theorem runLevel_length_scanRuns (v : Level) (n : Nat) (bs : List Level) :
    runLevel (scanRuns v n bs).length = (v == bs.getLastD v) := by
  induction bs generalizing v n with
  | nil => simp [scanRuns, runLevel]
  | cons b bs ih =>
    rw [List.getLastD_cons]
    unfold scanRuns
    split
    · next hb => rw [ih, hb]
    · next hb =>
      rw [List.length_cons, runLevel_succ, ih, Bool.eq_not_of_ne hb]
      cases v <;> cases bs.getLastD _ <;> rfl

/-- A frame has an odd number of runs exactly when its first and last bits agree. -/
theorem runLevel_length_runsFromFrame (f : Frame) :
    runLevel (runsFromFrame f).length = (f.getLsbD 0 == f.getLsbD 10) := runLevel_length_scanRuns _ _ _

/-- R127: the first and last bits of a valid frame differ, so its runs are even in number, and there are at least one
and at most eleven. -/
theorem length_runsFromFrame_of_valid (f : Frame) (hstart : f.getLsbD 0 = false) (hstop : f.getLsbD 10 = true) :
    (runsFromFrame f).length % 2 = 0 ∧ 2 ≤ (runsFromFrame f).length ∧ (runsFromFrame f).length ≤ 10 := by
  have hlevel := runLevel_length_runsFromFrame f
  have hpos := length_runsFromFrame_pos f
  have hle := length_runsFromFrame_le_frameBits f
  rw [hstart, hstop] at hlevel
  have hodd : (runsFromFrame f).length % 2 ≠ 1 := by simpa [runLevel] using hlevel
  omega

/-- Settles O17: RUNC holds the number of runs of the frame in ARG[10:0]. -/
theorem validFrameHasEvenRuns : Obligations.ValidFrameHasEvenRuns := by
  intro s hstart hstop
  have hruns := length_runsFromFrame_of_valid (argFrame s) (by rwa [getLsbD_argFrame s 0 (by decide)])
    (by rwa [getLsbD_argFrame s 10 (by decide)])
  have hrunc : (BitVec.ofNat 5 (runsFromFrame (argFrame s)).length).toNat = (runsFromFrame (argFrame s)).length :=
    Nat.mod_eq_of_lt (by omega)
  rw [← hrunc] at hruns
  exact ⟨_, rfl, hruns⟩

end Sys2Proof.Machine

/-! PROOFS. NOP, the reserved opcodes and ENCODE_MESSAGE (R105, R131, R139, R140, R203): the whole next state of each
outcome. -/

namespace Sys2Proof.Machine

/-! ### NOP and the reserved opcodes -/

/-- Settles O1: the meaning of NOP is the write of RESULT. -/
theorem nopWritesResultAlone : Obligations.NopWritesResultAlone := fun _ => rfl

theorem decodeOp_of_reserved : ∀ op : BitVec 4, 9 ≤ op.toNat →
    decodeOp op = .reserved9 ∨ decodeOp op = .reservedAB op ∨ decodeOp op = .reservedCF op := by decide

theorem exec_decodeOp_of_reserved (op : BitVec 4) (hop : 9 ≤ op.toNat) (s : State) :
    exec (decodeOp op) s = illegalOp s := by
  obtain h | h | h := decodeOp_of_reserved op hop <;> rw [h] <;> rfl

/-- Settles O2: a word with a reserved OP decodes to one of the three rows, which all have one meaning. -/
theorem reservedOpcodesChangeResultAlone : Obligations.ReservedOpcodesChangeResultAlone := by
  intro s
  refine ⟨fun w hw => ?_, rfl, fun op => ⟨rfl, rfl⟩⟩
  have hop : 9 ≤ (opField w).toNat := by rwa [toNat_opField]
  exact (act_wrCmd w s).trans (exec_decodeOp_of_reserved _ hop s)

/-! ### The message found in PAY_OUT -/

theorem ne_terminator_of_validMessage {cap : Nat} {ps : List Entry} (h : ValidMessage cap ps) :
    ∀ p ∈ ps, p ≠ Config.terminator := by
  obtain ⟨_, _, hrange, _⟩ := h
  rintro p hp rfl
  exact absurd (hrange _ hp) (by decide)

section outbound
variable (s : State) (ps rest : List Entry)

theorem outboundPayloads_of_append (hlen : s.payOut.length = s.params.msgCap + 1)
    (hout : s.payOut = ps ++ Config.terminator :: rest) (hps : ∀ p ∈ ps, p ≠ Config.terminator) :
    outboundPayloads s = some ps := by
  rw [outboundPayloads, List.take_of_length_le hlen.le, hout, untilTerminator_append ps rest hps]

theorem length_le_msgCap_of_append (hlen : s.payOut.length = s.params.msgCap + 1)
    (hout : s.payOut = ps ++ Config.terminator :: rest) : ps.length ≤ s.params.msgCap := by
  rw [hout, List.length_append, List.length_cons] at hlen
  omega

/-- The whole next state of ENCODE_MESSAGE on a well-formed message that fits (R131). -/
theorem exec_encodeMessage_of_validMessage (hs : Safe s) (hfree : s.txLen = 0#16)
    (hout : s.payOut = ps ++ Config.terminator :: rest) (hvalid : ValidMessage s.params.msgCap ps)
    (hfit : (frameDurations (messageFrames ps)).length ≤ s.params.runbufCap) :
    exec .encodeMessage s = .next
      { s with
        txBuf := frameDurations (messageFrames ps) ++ s.txBuf.drop (frameDurations (messageFrames ps)).length
        txLen := BitVec.ofNat 16 (frameDurations (messageFrames ps)).length
        res := BitVec.ofNat 32 (frameDurations (messageFrames ps)).length
        result := ⟨.ok, false, false, false, false⟩ } := by
  obtain ⟨_, ⟨_, hpayOut, _, htxBuf, _⟩, _⟩ := hs
  have hfound := outboundPayloads_of_append s ps rest hpayOut hout (ne_terminator_of_validMessage hvalid)
  have hcap := length_le_msgCap_of_append s ps rest hpayOut hout
  have hwf := (wellFormedMessage_iff _ ps hcap).mpr hvalid
  rw [encodeMessage_accepts s ps hfree hfound hwf (by rwa [length_messageRuns]), acceptMessage, length_messageRuns,
    map_runDuration_messageRuns, overwrite_eq_append_drop _ _ (by rwa [htxBuf])]
  rfl

end outbound

/-- Settles O9: a well-formed message holds no terminator of its own, so it is the one found and accepted. -/
theorem encodeMessageAcceptsAValidMessage : Obligations.EncodeMessageAcceptsAValidMessage := by
  rintro s ps rest ds hs hfree hout hvalid rfl hfit
  exact exec_encodeMessage_of_validMessage s ps rest hs hfree hout hvalid hfit

/-! ### The refusals of ENCODE_MESSAGE, in the order of its tests -/

section refusals
variable (s : State)

theorem exec_encodeMessage_of_busy (hbusy : s.txLen ≠ 0#16) : exec .encodeMessage s = refuseWith .busy s :=
  if_pos hbusy

theorem exec_encodeMessage_of_no_terminator (hfree : s.txLen = 0#16) (hnone : outboundPayloads s = none) :
    exec .encodeMessage s = refuseWith .malformed s := by
  change execEncodeMessage s = _
  rw [execEncodeMessage, if_neg (not_not_intro hfree), hnone]

variable (ps : List Entry) (hfree : s.txLen = 0#16) (hfound : outboundPayloads s = some ps)
include hfree hfound

theorem exec_encodeMessage_of_not_wellFormed (hbad : wellFormedMessage ps = false) :
    exec .encodeMessage s = refuseWith .malformed s := by
  change execEncodeMessage s = _
  rw [execEncodeMessage, if_neg (not_not_intro hfree), hfound]
  exact if_pos hbad

theorem exec_encodeMessage_of_tooLong (hwf : wellFormedMessage ps = true)
    (hlong : s.params.runbufCap < (messageRuns ps).length) : exec .encodeMessage s = refuseWith .tooLong s := by
  change execEncodeMessage s = _
  rw [execEncodeMessage, if_neg (not_not_intro hfree), hfound]
  exact (if_neg (by simp [hwf])).trans (if_pos hlong)

end refusals

/-- Settles O10: the message, if a terminator ends one, is the one ENCODE_MESSAGE tests, and its tests are R83's. -/
theorem encodeMessageRefusesInOrder : Obligations.EncodeMessageRefusesInOrder := by
  intro s hlen
  refine ⟨exec_encodeMessage_of_busy s, fun hfree hnone => ?_, fun ps rest hfree hout hps => ?_⟩
  · refine exec_encodeMessage_of_no_terminator s hfree ?_
    rwa [outboundPayloads, List.take_of_length_le hlen.le, untilTerminator_eq_none]
  · have hfound := outboundPayloads_of_append s ps rest hlen hout hps
    have hwf := wellFormedMessage_iff _ ps (length_le_msgCap_of_append s ps rest hlen hout)
    rw [← hwf, Bool.not_eq_true, ← length_messageRuns]
    exact ⟨exec_encodeMessage_of_not_wellFormed s ps hfree hfound, exec_encodeMessage_of_tooLong s ps hfree hfound⟩

end Sys2Proof.Machine

/-! PROOFS. DECODE_MESSAGE (R135 to R137): the groups it cuts the rounded runs into, the whole next state of each
outcome, and that jitter within half a bit is rounded away. -/

namespace Sys2Proof.Machine

/-! ### The groups of `decode_runs` -/

/-- A group is cut at the first run that reaches 11 bits: without its last run it covers fewer (R136). -/
theorem mem_groupRuns (g bs : List Nat) (hg : g.sum < 11) :
    ∀ c ∈ groupRuns g g.sum bs, c ≠ [] ∧ c.dropLast.sum < 11 := by
  induction bs generalizing g with
  | nil =>
    unfold groupRuns
    split
    · simp
    · next hne =>
      have hle : g.dropLast.sum ≤ g.sum := (List.dropLast_sublist g).sum_le_sum (fun _ _ => Nat.zero_le _)
      simpa [hne] using hle.trans_lt hg
  | cons b bs ih =>
    unfold groupRuns
    split
    · next hlt =>
      have hsum : g.sum + b = (g ++ [b]).sum := by simp
      rw [hsum] at hlt ⊢
      exact ih _ hlt
    · simpa [hg] using ih [] (by decide)

/-- Only the last group may cover fewer than 11 bits (R136). -/
theorem mem_dropLast_groupRuns (g bs : List Nat) : ∀ c ∈ (groupRuns g g.sum bs).dropLast, 11 ≤ c.sum := by
  induction bs generalizing g with
  | nil => unfold groupRuns; split <;> simp
  | cons b bs ih =>
    unfold groupRuns
    split
    · simpa using ih (g ++ [b])
    · next hge =>
      have hrest := ih []
      rw [List.sum_nil] at hrest
      cases hgroups : groupRuns [] 0 bs with
      | nil => simp
      | cons c cs =>
        rw [hgroups] at hrest
        rw [List.dropLast_cons_cons]
        refine List.forall_mem_cons.mpr ⟨?_, hrest⟩
        simpa using hge

/-! ### What DECODE_MESSAGE answers -/

theorem exec_decodeMessage_of_nodata (s : State) (h : s.rxLen = 0#16) :
    exec .decodeMessage s = refuseWith .nodata s := if_pos h

theorem exec_decodeMessage_of_published (s : State) (h : s.rxLen ≠ 0#16) :
    exec .decodeMessage s = deliver (inboundFrames s) s := if_neg h

theorem anyInvalid_eq (fs : List Frame) : anyInvalid fs = fs.any fun f => f.getLsbD 0 || !f.getLsbD 10 := by
  simp [anyInvalid, payloadFromFrame, frameValid_eq]

theorem payloadEntry_eq (f : Frame) : payloadEntry f = (f.extractLsb' 1 9).setWidth 16 := by
  have hpayload : framePayload (f.setWidth 32) = f.extractLsb' 1 9 := by
    refine BitVec.eq_of_getLsbD_eq fun i hi => ?_
    rw [getLsbD_framePayload, BitVec.getLsbD_setWidth, BitVec.getLsbD_extractLsb', Nat.add_comm 1,
      decide_eq_true (by omega : i + 1 < 32), Bool.true_and]
  rw [payloadEntry, payloadFromFrame, hpayload]

/-- The whole next state of a delivery, `n` payloads of it kept (R135). -/
theorem deliver_eq (fs : List Frame) (s : State) (n : Nat) (hlen : s.payIn.length = s.params.msgCap + 1)
    (hn : n = min fs.length s.params.msgCap) :
    deliver fs s = .next
      { s with
        payIn := (fs.take n).map (fun f => (f.extractLsb' 1 9).setWidth 16) ++ 0xFFFF#16 :: s.payIn.drop (n + 1)
        res := BitVec.ofNat 32 n
        rxLen := 0#16
        rxTrunc := false
        result :=
          ⟨.ok, false,
            fs.any (fun f => f.getLsbD 0 || !f.getLsbD 10) || decide (s.params.msgCap < fs.length),
            s.rxTrunc, decide (s.params.msgCap < fs.length)⟩ } := by
  have hkept : fs.take s.params.msgCap = fs.take n := by rw [hn, Nat.min_comm, ← List.take_eq_take_min]
  have hcount : (fs.take n).length = n := by rw [List.length_take]; omega
  have hwritten : ((fs.take n).map payloadEntry ++ [Config.terminator]).length = n + 1 := by
    rw [List.length_append, List.length_map, hcount]
    rfl
  have hfit : n + 1 ≤ s.payIn.length := by omega
  rw [deliver, hkept, hcount, overwrite_eq_append_drop _ _ (hwritten.trans_le hfit), hwritten, anyInvalid_eq,
    funext payloadEntry_eq, List.append_assoc]
  rfl

/-- Settles O11: the groups are those of `decode_runs`, from an empty group. -/
theorem decodeMessageDeliversTheDatagram : Obligations.DecodeMessageDeliversTheDatagram := by
  intro s
  refine ⟨exec_decodeMessage_of_nodata s, fun hpublished hlen => ?_⟩
  refine ⟨groupRuns [] 0 ((inboundDurations s).map ticksToBitLength), inboundFrames s, _, ?_,
    mem_groupRuns [] _ (by decide), mem_dropLast_groupRuns [] _, rfl, rfl, ?_⟩
  · rw [flatten_groupRuns, List.nil_append, inboundDurations, List.map_map]
    rfl
  · rw [exec_decodeMessage_of_published s hpublished]
    exact deliver_eq _ s _ hlen rfl

/-! ### Rounding -/

/-- R137: a duration within -104 to +103 of a whole number of bits is rounded to it. -/
theorem ticksToBitLength_of_near (d c : Nat) (hlo : 208 * c ≤ d + 104) (hhi : d ≤ 208 * c + 103) :
    ticksToBitLength d = c := by
  rw [ticksToBitLength_eq_div]
  omega

/-- Durations that are near whole bit counts, entry by entry, are rounded to those counts (R137). -/
theorem map_ticksToBitLength_of_near (ds : List Entry) (cs : List Nat) (hlen : cs.length ≤ ds.length)
    (hnear : ∀ j < cs.length, 208 * cs.getD j 0 ≤ (readEntry ds j).toNat + 104
      ∧ (readEntry ds j).toNat ≤ 208 * cs.getD j 0 + 103) :
    ((ds.take cs.length).map BitVec.toNat).map ticksToBitLength = cs := by
  refine List.ext_getElem (by simpa using hlen) fun j hj hjc => ?_
  obtain ⟨hlo, hhi⟩ := hnear j hjc
  have hjd : j < ds.length := hjc.trans_le hlen
  simp only [readEntry, List.getD_eq_getElem _ _ hjc, List.getD_eq_getElem _ _ hjd] at hlo hhi
  simpa using ticksToBitLength_of_near _ _ hlo hhi

/-- Exact durations that fit an entry are rounded to their bit counts. -/
theorem map_ticksToBitLength_exact (cs : List Nat) (hfit : ∀ c ∈ cs, c < 315) :
    ((cs.map fun c => BitVec.ofNat 16 (208 * c)).map BitVec.toNat).map ticksToBitLength = cs := by
  rw [List.map_map, List.map_map]
  refine (List.map_congr_left fun c hc => ?_).trans (List.map_id' cs)
  have hlt := hfit c hc
  have hexact : (BitVec.ofNat 16 (208 * c)).toNat = 208 * c := Nat.mod_eq_of_lt (by omega)
  exact (congrArg ticksToBitLength hexact).trans (ticksToBitLength_of_near _ c (by omega) (by omega))

/-- Settles O18: both datagrams are rounded to the same runs, so the same frames are delivered. -/
theorem jitterWithinHalfABitDecodesAlike : Obligations.JitterWithinHalfABitDecodesAlike := by
  intro s cs hpublished hcount hlen hnear
  have hfit : ∀ c ∈ cs, c < 315 := fun c hc => by
    obtain ⟨j, hj, rfl⟩ := List.getElem_of_mem hc
    rw [← List.getD_eq_getElem cs 0 hj]
    exact (hnear j hj).1
  have hrounded : inboundFrames s = decodeRuns cs := by
    rw [inboundFrames, inboundDurations, ← hcount,
      map_ticksToBitLength_of_near _ cs hlen fun j hj => (hnear j hj).2]
  have hexact :
      inboundFrames { s with rxBuf := cs.map fun c => BitVec.ofNat 16 (208 * c) } = decodeRuns cs := by
    rw [inboundFrames, inboundDurations, ← hcount, List.take_of_length_le (List.length_map _).le,
      map_ticksToBitLength_exact cs hfit]
  refine ⟨_, _, exec_decodeMessage_of_published s hpublished, exec_decodeMessage_of_published _ hpublished, ?_⟩
  rw [hrounded, hexact]
  exact ⟨rfl, rfl, rfl⟩

end Sys2Proof.Machine

/-! PROOFS. Messages on the wire (R86, R132 to R134): frames sent back to back are grouped into the same frames,
whatever the length of the last run, and carry their bits in order. -/

namespace Sys2Proof.Machine

/-! ### The length of the last run makes no difference -/

/-- The final run's level also pads a shortfall and bits beyond 11 are dropped, so its length does not matter (R115). -/
theorem frameFromRuns_append_singleton (rs : List Nat) (c d : Nat) :
    frameFromRuns (rs ++ [c]) = frameFromRuns (rs ++ [d]) := by
  have hbit (c i : Nat) (hi : i < 11) :
      (frameFromRuns (rs ++ [c])).getLsbD i = (expandRuns 0 rs).getD i (runLevel rs.length) := by
    rw [getLsbD_frameFromRuns _ (by simp) i hi, expandRuns_append]
    simp only [expandRuns, List.length_append, List.length_singleton, Nat.add_sub_cancel, Nat.zero_add,
      List.append_nil, List.getD_eq_getElem?_getD]
    by_cases h : i < (expandRuns 0 rs).length
    · rw [List.getElem?_append_left h]
    · rw [List.getElem?_append_right (by omega), List.getElem?_replicate, List.getElem?_eq_none (by omega)]
      split <;> rfl
  exact BitVec.eq_of_getLsbD_eq fun i hi => by rw [hbit c i hi, hbit d i hi]

theorem groupRuns_singleton (g : List Nat) (acc c : Nat) : groupRuns g acc [c] = [g ++ [c]] := by
  simp [groupRuns]

theorem map_frameFromRuns_groupRuns_append (g : List Nat) (acc c d : Nat) (bs : List Nat) :
    (groupRuns g acc (bs ++ [c])).map frameFromRuns = (groupRuns g acc (bs ++ [d])).map frameFromRuns := by
  induction bs generalizing g acc with
  | nil =>
    rw [List.nil_append, List.nil_append, groupRuns_singleton, groupRuns_singleton, List.map_singleton,
      List.map_singleton, frameFromRuns_append_singleton g c d]
  | cons b bs ih =>
    rw [List.cons_append, List.cons_append, groupRuns, groupRuns]
    split
    · exact ih _ _
    · rw [List.map_cons, List.map_cons, ih]

/-- R133: the capture cap in place of the last run's length decodes to the same frames. -/
theorem decodeRuns_congr_dropLast (as bs : List Nat) (hlen : as.length = bs.length)
    (hinit : as.dropLast = bs.dropLast) : decodeRuns as = decodeRuns bs := by
  obtain rfl | ⟨as, a, rfl⟩ := as.eq_nil_or_concat'
  · rw [List.eq_nil_of_length_eq_zero hlen.symm]
  · obtain rfl | ⟨bs, b, rfl⟩ := bs.eq_nil_or_concat'
    · simp at hlen
    · rw [List.dropLast_concat, List.dropLast_concat] at hinit
      rw [hinit]
      exact map_frameFromRuns_groupRuns_append [] 0 a b bs

/-! ### Frames back to back -/

/-- Each frame's runs are one group, since they cover 11 bits (R133, R136). -/
theorem decodeRuns_flatMap_runsFromFrame (fs : List Frame) :
    decodeRuns (fs.flatMap runsFromFrame) = fs.map fun f => frameFromRuns (runsFromFrame f) := by
  induction fs with
  | nil => rfl
  | cons f fs ih =>
    have hgroup := groupRuns_append_of_sum [] 0 (runsFromFrame f) (fs.flatMap runsFromFrame)
      (List.ne_nil_of_length_pos (length_runsFromFrame_pos f)) (pos_of_mem_runsFromFrame f)
      ((Nat.zero_add _).trans (sum_runsFromFrame f))
    rw [List.flatMap_cons, decodeRuns, hgroup, List.map_cons, List.map_cons, ← ih]
    rfl

theorem frameDurations_eq (fs : List Frame) :
    frameDurations fs = (fs.flatMap runsFromFrame).map fun r => BitVec.ofNat 16 (208 * r) := by
  rw [frameDurations, List.map_flatMap]

theorem mem_flatMap_runsFromFrame_le (fs : List Frame) : ∀ r ∈ fs.flatMap runsFromFrame, r ≤ 11 := by
  intro r hr
  obtain ⟨f, _, hrf⟩ := List.mem_flatMap.mp hr
  exact (List.le_sum_of_mem hrf).trans_eq (sum_runsFromFrame f)

/-- A buffer that holds the durations of frames, but for the last entry, is decoded into the frames their runs give. -/
theorem inboundFrames_of_frameDurations (u : State) (fs : List Frame)
    (hcount : u.rxLen.toNat = (frameDurations fs).length) (hfit : u.rxLen.toNat ≤ u.rxBuf.length)
    (hsame : ∀ j, j + 1 < (frameDurations fs).length → readEntry u.rxBuf j = readEntry (frameDurations fs) j) :
    inboundFrames u = fs.map fun f => frameFromRuns (runsFromFrame f) := by
  have hlen : (u.rxBuf.take u.rxLen.toNat).length = (frameDurations fs).length := by
    rw [List.length_take, Nat.min_eq_left hfit, hcount]
  have hinit : (u.rxBuf.take u.rxLen.toNat).dropLast = (frameDurations fs).dropLast := by
    refine List.ext_getElem (by rw [List.length_dropLast, List.length_dropLast, hlen]) fun j _ hj => ?_
    rw [List.length_dropLast] at hj
    have hentry := hsame j (by omega)
    rw [readEntry, readEntry, List.getD_eq_getElem _ _ (by omega), List.getD_eq_getElem _ _ (by omega)] at hentry
    simpa using hentry
  have hruns : ((frameDurations fs).map BitVec.toNat).map ticksToBitLength = fs.flatMap runsFromFrame := by
    rw [frameDurations_eq]
    exact map_ticksToBitLength_exact _ fun r hr => (mem_flatMap_runsFromFrame_le fs r hr).trans_lt (by decide)
  rw [← decodeRuns_flatMap_runsFromFrame, ← hruns, inboundFrames, inboundDurations]
  exact decodeRuns_congr_dropLast _ _ (by simpa using hlen) (by rw [← List.map_dropLast, ← List.map_dropLast,
    ← List.map_dropLast, ← List.map_dropLast, hinit])

/-- Every frame has a run, so a datagram of frames is published. -/
theorem rxLen_ne_zero_of_frameDurations (u : State) (fs : List Frame) (hfs : fs ≠ [])
    (hcount : u.rxLen.toNat = (frameDurations fs).length) : u.rxLen ≠ 0#16 := by
  obtain ⟨f, fs, rfl⟩ := List.exists_cons_of_ne_nil hfs
  have hpos := length_runsFromFrame_pos f
  rw [frameDurations_eq, List.length_map, List.flatMap_cons, List.length_append] at hcount
  intro hzero
  rw [hzero, BitVec.toNat_ofNat] at hcount
  omega

/-- The run count of a message that fits is held by TX_LEN as it stands (R8, R42). -/
theorem toNat_ofNat_of_le_runbufCap (p : Config.Params) (n : Nat) (hp : p.wellFormed = true) (hn : n ≤ p.runbufCap) :
    (BitVec.ofNat 16 n).toNat = n := by
  obtain ⟨_, hcapMax, _⟩ := (params_wellFormed_iff _).mp hp
  exact Nat.mod_eq_of_lt (by omega)

/-! ### A message and back -/

theorem messageFrames_valid (ps : List Entry) :
    ∀ f ∈ messageFrames ps, f.getLsbD 0 = false ∧ f.getLsbD 10 = true := by
  intro f hf
  obtain ⟨p, _, rfl⟩ := List.mem_map.mp hf
  exact ⟨frameOf_startBit _, frameOf_stopBit _⟩

/-- R125: the payload of a payload's frame. -/
theorem extractLsb'_frameOf (p : Entry) (hp : p.toNat ≤ 0x1FF) :
    ((frameOf (p.setWidth 9)).extractLsb' 1 9).setWidth 16 = p := by
  rw [← payloadEntry_eq, ← frameFromPayload_eq_frameOf, payloadEntry, payloadFromFrame,
    framePayload_frameFromPayload]
  refine BitVec.eq_of_toNat_eq ?_
  simp only [BitVec.toNat_setWidth]
  omega

theorem map_payload_messageFrames (ps : List Entry) (hrange : ∀ p ∈ ps, p.toNat ≤ 0x1FF) :
    (messageFrames ps).map (fun f => (f.extractLsb' 1 9).setWidth 16) = ps := by
  rw [messageFrames, List.map_map]
  exact (List.map_congr_left fun p hp => extractLsb'_frameOf p (hrange p hp)).trans (List.map_id' ps)

theorem map_frameFromRuns_runsFromFrame (fs : List Frame) (hstart : ∀ f ∈ fs, f.getLsbD 0 = false) :
    fs.map (fun f => frameFromRuns (runsFromFrame f)) = fs :=
  (List.map_congr_left fun f hf => (frameFromRuns_runsFromFrame_eq_iff f).mpr (hstart f hf)).trans (List.map_id' fs)

/-- DECODE_MESSAGE gives a message back from a buffer that holds its durations, whatever the last entry (R133). -/
theorem exec_decodeMessage_of_message (u : State) (ps : List Entry) (hs : Safe u)
    (hvalid : ValidMessage u.params.msgCap ps)
    (hcount : u.rxLen.toNat = (frameDurations (messageFrames ps)).length)
    (hsame : ∀ j, j + 1 < (frameDurations (messageFrames ps)).length →
      readEntry u.rxBuf j = readEntry (frameDurations (messageFrames ps)) j) :
    exec .decodeMessage u = .next
      { u with
        payIn := ps ++ 0xFFFF#16 :: u.payIn.drop (ps.length + 1)
        res := BitVec.ofNat 32 ps.length
        rxLen := 0#16
        rxTrunc := false
        result := ⟨.ok, false, false, u.rxTrunc, false⟩ } := by
  obtain ⟨_, ⟨_, _, hpayIn, _, hrxBuf⟩, _, ⟨_, _, hrxLen⟩, _⟩ := hs
  obtain ⟨hne, hcap, hrange, _⟩ := hvalid
  have hlen : (messageFrames ps).length = ps.length := List.length_map _
  have hpublished := rxLen_ne_zero_of_frameDurations u (messageFrames ps) (mt List.map_eq_nil_iff.mp hne) hcount
  have hframes : inboundFrames u = messageFrames ps := by
    rw [inboundFrames_of_frameDurations u _ hcount (by omega) hsame]
    exact map_frameFromRuns_runsFromFrame _ fun f hf => (messageFrames_valid ps f hf).1
  have hintact : (messageFrames ps).any (fun f => f.getLsbD 0 || !f.getLsbD 10) = false :=
    List.any_eq_false.mpr fun f hf => by
      obtain ⟨hstart, hstop⟩ := messageFrames_valid ps f hf
      rw [hstart, hstop]
      decide
  have hovf : decide (u.params.msgCap < ps.length) = false := decide_eq_false (Nat.not_lt.mpr hcap)
  rw [exec_decodeMessage_of_published u hpublished, hframes, deliver_eq _ u ps.length hpayIn (by omega),
    List.take_of_length_le hlen.le, map_payload_messageFrames ps hrange, hintact, hlen, hovf]
  rfl

/-- Settles O19: the buffer holds the durations of the message's frames but for the last entry, which makes no
difference. -/
theorem encodedMessageDecodesBack : Obligations.EncodedMessageDecodesBack := by
  intro s ps rest hs hfree hout hvalid hfit
  refine ⟨_, exec_encodeMessage_of_validMessage s ps rest hs hfree hout hvalid hfit, rfl, ?_⟩
  intro u hu hparams hrxLen hbuf
  obtain ⟨hp, _⟩ := hs
  have hcount := toNat_ofNat_of_le_runbufCap _ _ hp hfit
  have hsame : ∀ j, j + 1 < (frameDurations (messageFrames ps)).length →
      readEntry u.rxBuf j = readEntry (frameDurations (messageFrames ps)) j := fun j hj => by
    have hentry := (hbuf j (by rw [hcount]; omega)).resolve_right fun ⟨hlast, _⟩ => by rw [hcount] at hlast; omega
    rw [hentry, readEntry, readEntry, List.getD_append _ _ _ _ (by omega)]
  refine ⟨_, exec_decodeMessage_of_message u ps hu (by rwa [hparams]) (by rw [hrxLen, hcount]) hsame, ?_⟩
  refine ⟨?_, rfl, rfl, rfl, rfl⟩
  rw [List.append_cons]
  exact List.take_left' List.length_append

/-! ### Damaged frames -/

theorem endBits_eq_of_setStart (f : Frame) (hstop : f.getLsbD 10 = true) :
    (f ||| 0x001#11).getLsbD 10 = (f ||| 0x001#11).getLsbD 0 := by
  rw [BitVec.getLsbD_or, BitVec.getLsbD_or, hstop]
  exact (Bool.or_true _).symm

theorem endBits_eq_of_clearStop (f : Frame) (hstart : f.getLsbD 0 = false) :
    (f &&& 0x3FF#11).getLsbD 10 = (f &&& 0x3FF#11).getLsbD 0 := by
  rw [BitVec.getLsbD_and, BitVec.getLsbD_and, hstart]
  exact Bool.and_false _

/-- A frame whose start and stop bits agree decodes to one that starts with 0 and ends with 0: it is reported (R134). -/
theorem decodeMessage_corrupt_of_endBits_eq (u : State) (gs : List Frame) (g : Frame) (hs : Safe u) (hg : g ∈ gs)
    (hends : g.getLsbD 10 = g.getLsbD 0) (hcount : u.rxLen.toNat = (frameDurations gs).length)
    (hsame : ∀ j, j + 1 < (frameDurations gs).length → readEntry u.rxBuf j = readEntry (frameDurations gs) j) :
    ∃ v : State, exec .decodeMessage u = .next v ∧ v.result.corrupt = true := by
  obtain ⟨_, ⟨_, _, hpayIn, _, hrxBuf⟩, _, ⟨_, _, hrxLen⟩, _⟩ := hs
  have hpublished := rxLen_ne_zero_of_frameDurations u gs (List.ne_nil_of_mem hg) hcount
  have hstop : (frameFromRuns (runsFromFrame g)).getLsbD 10 = false := by
    rw [getLsbD_frameFromRuns_runsFromFrame g 10 (by decide), hends, Bool.xor_self]
  have hinvalid : (inboundFrames u).any (fun f => f.getLsbD 0 || !f.getLsbD 10) = true := by
    rw [inboundFrames_of_frameDurations u gs hcount (by omega) hsame]
    exact List.any_eq_true.mpr ⟨_, List.mem_map_of_mem hg, by rw [hstop, Bool.not_false, Bool.or_true]⟩
  refine ⟨_, (exec_decodeMessage_of_published u hpublished).trans (deliver_eq _ u _ hpayIn rfl), ?_⟩
  exact Bool.or_eq_true_iff.mpr (.inl hinvalid)

/-- The buffer of vector M9 decodes into two valid frames, though a bit was flipped on the line (R134). -/
theorem inboundFrames_m9 (u : State) (hlen : u.rxLen = 8#16)
    (hbuf : u.rxBuf.take 8 = [208#16, 208#16, 624#16, 1456#16, 208#16, 208#16, 1456#16, 2291#16]) :
    inboundFrames u = [0x7E2#11, 0x602#11] := by
  rw [inboundFrames, inboundDurations, hlen]
  change decodeRuns (((u.rxBuf.take 8).map BitVec.toNat).map ticksToBitLength) = _
  rw [hbuf]
  decide

/-- Settles O20: either damage makes the start and stop bits of the frame agree; M9 delivers two valid frames. -/
theorem damagedFrameIsReported : Obligations.DamagedFrameIsReported := by
  refine ⟨fun u fs k ds hs hvalid hk hds hcount hbuf => ?_, fun u hs hlen hcap hbuf => ?_⟩
  · obtain ⟨hstart, hstop⟩ := hvalid (fs.getD k 0#11) (List.getD_eq_getElem _ _ hk ▸ List.getElem_mem hk)
    obtain ⟨g, hends, rfl⟩ : ∃ g : Frame, g.getLsbD 10 = g.getLsbD 0 ∧ ds = frameDurations (fs.set k g) := by
      obtain hflip | hclear := hds
      · exact ⟨_, endBits_eq_of_setStart _ hstop, hflip⟩
      · exact ⟨_, endBits_eq_of_clearStop _ hstart, hclear⟩
    exact decodeMessage_corrupt_of_endBits_eq u _ g hs (List.mem_set hk g) hends hcount fun j hj =>
      (hbuf j (by omega)).resolve_right fun ⟨hlast, _⟩ => by omega
  · obtain ⟨_, ⟨_, _, hpayIn, _⟩, _⟩ := hs
    have hintact : [0x7E2#11, 0x602#11].any (fun f => f.getLsbD 0 || !f.getLsbD 10) = false := by decide
    have hexec := exec_decodeMessage_of_published u (by rw [hlen]; decide)
    rw [inboundFrames_m9 u hlen hbuf, deliver_eq [0x7E2#11, 0x602#11] u 2 hpayIn (Nat.min_eq_left hcap).symm] at hexec
    refine ⟨_, hexec, ?_, by rfl⟩
    exact Bool.or_eq_false_iff.mpr ⟨hintact, decide_eq_false (Nat.not_lt.mpr hcap)⟩

/-! ### The bits on the wire -/

/-- Levels alternate, so an even number of runs before leaves the levels as they are (R84). -/
theorem expandRuns_add_even (j n : Nat) (rs : List Nat) (hn : n % 2 = 0) : expandRuns (j + n) rs = expandRuns j rs := by
  induction rs generalizing j with
  | nil => rfl
  | cons r rs ih =>
    have hlevel : runLevel (j + n) = runLevel j := by simp [runLevel, Nat.add_mod, hn]
    rw [expandRuns, expandRuns, hlevel, Nat.add_right_comm, ih]

/-- R132: valid frames sent back to back are an even number of runs and carry the frames' bits in order. -/
theorem expandRuns_flatMap_runsFromFrame (fs : List Frame)
    (hvalid : ∀ f ∈ fs, f.getLsbD 0 = false ∧ f.getLsbD 10 = true) :
    (fs.flatMap runsFromFrame).length % 2 = 0 ∧ expandRuns 0 (fs.flatMap runsFromFrame) = fs.flatMap frameBits := by
  induction fs with
  | nil => exact ⟨rfl, rfl⟩
  | cons f fs ih =>
    obtain ⟨⟨hstart, hstop⟩, hrest⟩ := List.forall_mem_cons.mp hvalid
    obtain ⟨heven, hbits⟩ := ih hrest
    obtain ⟨hfEven, _⟩ := length_runsFromFrame_of_valid f hstart hstop
    have hf : expandRuns 0 (runsFromFrame f) = frameBits f := by
      have hxor := map_xor_expandRuns_runsFromFrame f
      simpa only [hstart, Bool.xor_false, List.map_id'] using hxor
    rw [List.flatMap_cons, List.flatMap_cons]
    refine ⟨by rw [List.length_append]; omega, ?_⟩
    rw [expandRuns_append, expandRuns_add_even _ _ _ hfEven, hf, hbits]

/-- The durations of frames are whole bit counts: on the wire they are the frames' runs. -/
theorem wireBits_frameDurations (fs : List Frame) :
    wireBits (frameDurations fs) = expandRuns 0 (fs.flatMap runsFromFrame) := by
  rw [wireBits, frameDurations_eq, List.map_map]
  refine congrArg _ ((List.map_congr_left fun r hr => ?_).trans (List.map_id' _))
  have hle := mem_flatMap_runsFromFrame_le fs r hr
  simp only [Function.comp_apply, BitVec.toNat_ofNat, Config.bitPeriodUs]
  omega

/-- Settles O21: TX_BUF holds the durations of valid frames, which carry those frames' bits. -/
theorem wireCarriesTheFramesBits : Obligations.WireCarriesTheFramesBits := by
  intro s ps rest hs hfree hout hvalid hfit
  refine ⟨_, exec_encodeMessage_of_validMessage s ps rest hs hfree hout hvalid hfit, ?_⟩
  obtain ⟨hp, _⟩ := hs
  have hcount := toNat_ofNat_of_le_runbufCap _ _ hp hfit
  obtain ⟨heven, hbits⟩ := expandRuns_flatMap_runsFromFrame (messageFrames ps) (messageFrames_valid ps)
  refine ⟨?_, ?_⟩
  · rw [hcount, frameDurations_eq, List.length_map]
    exact heven
  · rw [hcount, List.take_left' rfl, wireBits_frameDurations, hbits]

end Sys2Proof.Machine

/-! PROOFS. One TICK (R141 to R148): which engine moves what, that neither engine sees the other, and the Scheduler's
whole view after each thing `tx_step` can do. -/

namespace Sys2Proof.Machine

/-! ### The engines' elements as parts of the state -/

/-- The state with the Transmit Scheduler's elements replaced. -/
def setTx (v : TxView) (s : State) : State :=
  { s with busOut := v.busOut, txLen := v.txLen, txCur := v.txCur, txNext := v.txNext, txCmp := v.txCmp
           txWait := v.txWait }

/-- The state with the Receive Capture Engine's elements replaced. -/
def setRx (v : RxView) (s : State) : State :=
  { s with rxBuf := v.rxBuf, rxCur := v.rxCur, rxLen := v.rxLen, rxCapt := v.rxCapt, rxPrev := v.rxPrev
           rxElapsed := v.rxElapsed, rxTrunc := v.rxTrunc }

section parts
variable (b : Level) (v : TxView) (w : RxView) (s : State)

@[simp] theorem txView_setRx : txView (setRx w s) = txView s := rfl
@[simp] theorem rxView_setTx : rxView (setTx v s) = rxView s := rfl
@[simp] theorem txView_advanceTime : txView (advanceTime s) = txView s := rfl

theorem setTx_setRx_comm : setTx v (setRx w s) = setRx w (setTx v s) := rfl

/-- `rx_step` moves the Receive Capture Engine's elements alone (R141). -/
theorem rxStep_eq_setRx : rxStep b s = setRx (rxView (rxStep b s)) s := rxStep_frame b s

/-- `tx_step` moves the Transmit Scheduler's elements alone (R141). -/
theorem txStep_eq_setTx : txStep s = setTx (txView (txStep s)) s := txStep_frame s

@[simp] theorem txView_rxStep : txView (rxStep b s) = txView s := by
  rw [rxStep_eq_setRx, txView_setRx]

@[simp] theorem rxView_txStep : rxView (txStep s) = rxView s := by
  rw [txStep_eq_setTx, rxView_setTx]

/-- A TICK moves TIME and the two engines' elements, and nothing else (R141). -/
theorem tick_eq_setTx_setRx : ∃ v w, tick b s = setTx v (setRx w (advanceTime s)) := by
  refine ⟨txView (tick b s), rxView (rxStep b (advanceTime s)), ?_⟩
  rw [← rxStep_eq_setRx, tick, ← txStep_eq_setTx]

end parts

/-- Settles O34: TIME is advanced first, and neither engine moves it or a command register. -/
theorem tickAdvancesTimeAndSparesTheCommandUnit : Obligations.TickAdvancesTimeAndSparesTheCommandUnit := by
  intro b s
  obtain ⟨v, w, e⟩ := tick_eq_setTx_setRx b s
  refine ⟨tick b s, rfl, ?_⟩
  rw [e]
  exact ⟨BitVec.toNat_add s.time 1#32, rfl, rfl, rfl, rfl, rfl, rfl, rfl, rfl, rfl, rfl, rfl, rfl⟩

/-! ### One equation per case of `tx_step` (R142, R144) -/

section cases
variable {s : State}

theorem txStep_of_no_firing (hwait : s.txWait = false) (hcmp : s.time ≠ s.txCmp) : txStep s = s := by
  simp [txStep, hwait, hcmp]

theorem txStep_of_early_wait (hwait : s.txWait = true) (hdue : txDue s = false) : txStep s = s := by
  simp [txStep, hwait, hdue]

theorem txStep_of_wait_end (hwait : s.txWait = true) (hdue : txDue s = true) :
    txStep s = txAct { s with txWait := false } := by
  simp [txStep, hwait, hdue]

theorem txStep_of_firing (hwait : s.txWait = false) (hcmp : s.time = s.txCmp) : txStep s = txFire s := by
  simp [txStep, hwait, hcmp]

theorem txFire_of_free (hlen : s.txLen = 0#16) : txFire s = heartbeat s := by
  simp [txFire, hlen]

theorem txFire_of_not_started (hlen : s.txLen ≠ 0#16) (hcur : s.txCur = 0#16) :
    txFire s = txAct { s with txNext := s.time } := by
  simp [txFire, hlen, hcur]

theorem txFire_of_run_end (hlen : s.txLen ≠ 0#16) (hcur : s.txCur ≠ 0#16) (hdue : txDue s = true) :
    txFire s = txAct s := by
  simp [txFire, hlen, hcur, hdue]

theorem txFire_of_early (hlen : s.txLen ≠ 0#16) (hcur : s.txCur ≠ 0#16) (hdue : txDue s = false) :
    txFire s = { s with txWait := true } := by
  simp [txFire, hlen, hcur, hdue]

/-- The run being driven ends at a firing or at the end of its wait, in one way. -/
theorem txStep_of_run_end (hlen : s.txLen ≠ 0#16) (hcur : s.txCur ≠ 0#16) (hend : s.txWait = true ∨ s.time = s.txCmp)
    (hdue : txDue s = true) : txStep s = txAct { s with txWait := false } := by
  cases hwait : s.txWait with
  | true => exact txStep_of_wait_end hwait hdue
  | false =>
    have hcmp : s.time = s.txCmp := hend.resolve_left (by simp [hwait])
    rw [txStep_of_firing hwait hcmp, txFire_of_run_end hlen hcur hdue, ← hwait]

theorem txAct_of_lt (hlt : s.txCur.toNat < s.txLen.toNat) : txAct s = startRun s.txCur.toNat s := if_pos hlt

theorem txAct_of_le (hle : s.txLen.toNat ≤ s.txCur.toNat) : txAct s = drainComplete s := if_neg (Nat.not_lt.mpr hle)

/-- The drain starts with run 0, at the firing's own instant (R145). -/
theorem txFire_of_drain_start (hlen : s.txLen ≠ 0#16) (hcur : s.txCur = 0#16) :
    txFire s = startRun 0 { s with txNext := s.time } := by
  have hlt : s.txCur.toNat < s.txLen.toNat := by bv_omega
  rw [txFire_of_not_started hlen hcur, txAct_of_lt (s := { s with txNext := s.time }) hlt]
  simp [hcur]

end cases

/-! ### Neither engine sees the other -/

/-- What `tx_step` reads is alike in two states: the Scheduler's elements, TIME, TX_BUF and the parameters. -/
def TxAgree (s u : State) : Prop :=
  txView s = txView u ∧ s.time = u.time ∧ s.txBuf = u.txBuf ∧ s.params = u.params

/-- The elements `tx_step` reads, one by one. -/
theorem TxAgree.fields {s u : State} (h : TxAgree s u) :
    s.busOut = u.busOut ∧ s.txLen = u.txLen ∧ s.txCur = u.txCur ∧ s.txNext = u.txNext ∧ s.txCmp = u.txCmp
      ∧ s.txWait = u.txWait ∧ s.time = u.time ∧ s.txBuf = u.txBuf ∧ s.params = u.params := by
  simpa [TxAgree, txView, and_assoc] using h

theorem TxAgree.setTx {s u : State} {v w : TxView} (h : TxAgree s u) (hvw : v = w) :
    TxAgree (setTx v s) (setTx w u) := by
  obtain ⟨-, hrest⟩ := h
  exact ⟨hvw, hrest⟩

theorem txDue_congr {s u : State} (h : TxAgree s u) : txDue s = txDue u := by
  obtain ⟨-, -, -, hnext, -, -, htime, -, -⟩ := h.fields
  rw [txDue, txDue, htime, hnext]

theorem txView_txAct_congr {s u : State} (h : TxAgree s u) : txView (txAct s) = txView (txAct u) := by
  obtain ⟨-, hlen, hcur, hnext, -, hwait, htime, hbuf, hparams⟩ := h.fields
  unfold txAct
  rw [hcur, hlen]
  split
  · simp [txView, hlen, hnext, hwait, htime, hbuf, hparams]
  · simp [txView, hnext, hwait, htime]

theorem txView_txFire_congr {s u : State} (h : TxAgree s u) : txView (txFire s) = txView (txFire u) := by
  have ⟨hview, _⟩ := h
  obtain ⟨hout, hlen, hcur, hnext, hcmp, hwait, htime, -, -⟩ := h.fields
  by_cases hl : u.txLen = 0#16
  · rw [txFire_of_free (hlen.trans hl), txFire_of_free hl]
    simp [txView, hlen, hcur, hnext, hwait, htime]
  · have hl' : s.txLen ≠ 0#16 := hlen ▸ hl
    by_cases hc : u.txCur = 0#16
    · rw [txFire_of_not_started hl' (hcur.trans hc), txFire_of_not_started hl hc]
      exact txView_txAct_congr (h.setTx (v := { txView s with txNext := s.time })
        (w := { txView u with txNext := u.time }) (by rw [hview, htime]))
    · have hc' : s.txCur ≠ 0#16 := hcur ▸ hc
      cases hd : txDue u with
      | true =>
        rw [txFire_of_run_end hl' hc' ((txDue_congr h).trans hd), txFire_of_run_end hl hc hd]
        exact txView_txAct_congr h
      | false =>
        rw [txFire_of_early hl' hc' ((txDue_congr h).trans hd), txFire_of_early hl hc hd]
        simp [txView, hout, hlen, hcur, hnext, hcmp]

theorem txView_txStep_congr {s u : State} (h : TxAgree s u) : txView (txStep s) = txView (txStep u) := by
  have ⟨hview, _⟩ := h
  obtain ⟨-, -, -, -, hcmp, hwait, htime, -, -⟩ := h.fields
  cases hw : u.txWait with
  | true =>
    have hw' := hwait.trans hw
    cases hd : txDue u with
    | true =>
      rw [txStep_of_wait_end hw' ((txDue_congr h).trans hd), txStep_of_wait_end hw hd]
      exact txView_txAct_congr (h.setTx (v := { txView s with txWait := false })
        (w := { txView u with txWait := false }) (by rw [hview]))
    | false => rwa [txStep_of_early_wait hw' ((txDue_congr h).trans hd), txStep_of_early_wait hw hd]
  | false =>
    have hw' := hwait.trans hw
    by_cases ht : u.time = u.txCmp
    · rw [txStep_of_firing hw' (htime.trans (ht.trans hcmp.symm)), txStep_of_firing hw ht]
      exact txView_txFire_congr h
    · rwa [txStep_of_no_firing hw' (by rwa [htime, hcmp]), txStep_of_no_firing hw ht]

/-- What `rx_step` leaves in its own elements is built from them, the sample and the parameters, branch by branch. -/
theorem rxView_rxStep_congr (b : Level) {s u : State} (hview : rxView s = rxView u) (hparams : s.params = u.params) :
    rxView (rxStep b s) = rxView (rxStep b u) := by
  simp only [rxView, RxView.mk.injEq] at hview
  obtain ⟨hbuf, hcur, hlen, hcapt, hprev, helapsed, htrunc⟩ := hview
  simp only [rxStep, rxEdge, rxElapsedNow, rxBeginOrDrop, apply_ite rxView]
  simp only [rxFinalize, rxStore, rxOverrun, rxView, hparams, hbuf, hcur, hlen, hcapt, hprev, helapsed, htrunc]

/-- The Scheduler does not see the sample: `rx_step` leaves all that `tx_step` reads. -/
theorem txView_txStep_rxStep (b : Level) (s : State) : txView (txStep (rxStep b s)) = txView (txStep s) :=
  txView_txStep_congr ⟨txView_rxStep b s, rxStep_time b s, rxStep_txBuf b s, rxStep_params b s⟩

/-- A TICK does to the Scheduler what `tx_step` does once TIME has advanced. -/
theorem txView_tick (b : Level) (s : State) : txView (tick b s) = txView (txStep (advanceTime s)) :=
  txView_txStep_rxStep b (advanceTime s)

/-- A TICK does to the Receive Capture Engine what `rx_step` does. -/
theorem rxView_tick (b : Level) (s : State) : rxView (tick b s) = rxView (rxStep b s) := by
  rw [tick, rxView_txStep]
  exact rxView_rxStep_congr b rfl rfl

theorem txStep_rxStep_comm (b : Level) (s : State) : txStep (rxStep b s) = rxStep b (txStep s) := by
  have hrx : rxView (rxStep b (txStep s)) = rxView (rxStep b s) :=
    rxView_rxStep_congr b (rxView_txStep s) (txStep_params s)
  calc txStep (rxStep b s)
      = setTx (txView (txStep s)) (rxStep b s) := by rw [txStep_eq_setTx, txView_txStep_rxStep]
    _ = setTx (txView (txStep s)) (setRx (rxView (rxStep b s)) s) := by rw [← rxStep_eq_setRx]
    _ = setRx (rxView (rxStep b s)) (txStep s) := by rw [setTx_setRx_comm, ← txStep_eq_setTx]
    _ = rxStep b (txStep s) := by rw [← hrx, ← rxStep_eq_setRx]

/-- Settles O35, from what each engine reads and moves. -/
theorem enginesDoNotInterfere : Obligations.EnginesDoNotInterfere := by
  refine ⟨fun b c s u hview htime hbuf hparams => ?_, fun b s u hview hparams => ?_, txStep_rxStep_comm⟩
  · rw [txView_tick, txView_tick]
    exact txView_txStep_congr ⟨hview, congrArg (· + 1#32) htime, hbuf, hparams⟩
  · rw [rxView_tick, rxView_tick]
    exact rxView_rxStep_congr b hview hparams

/-! ### What a TICK does to the Scheduler -/

/-- The Scheduler compares TX_NEXT with the advanced TIME. -/
theorem txDue_advanceTime (s : State) :
    txDue (advanceTime s) = true ↔ 0 ≤ (s.time + 1#32 - s.txNext).toInt := decide_eq_true_iff

theorem not_txDue_advanceTime {s : State} (h : (s.time + 1#32 - s.txNext).toInt < 0) :
    txDue (advanceTime s) = false :=
  decide_eq_false (Int.not_le.mpr h)

theorem txView_tick_of_firing (b : Level) {s : State} (hwait : s.txWait = false) (hcmp : s.time + 1#32 = s.txCmp) :
    txView (tick b s) = txView (txFire (advanceTime s)) := by
  rw [txView_tick, txStep_of_firing (s := advanceTime s) hwait hcmp]

/-- Settles O36: in each case `tx_step` does nothing, or sets TX_WAIT. -/
theorem earlyFiringWaitsForTheRunEnd : Obligations.EarlyFiringWaitsForTheRunEnd := by
  intro b s
  refine ⟨fun hwait hcmp => ?_, fun hwait hearly => ?_, fun hwait hcmp hlen hcur hearly => ?_⟩
  · rw [txView_tick, txStep_of_no_firing (s := advanceTime s) hwait hcmp, txView_advanceTime]
  · rw [txView_tick, txStep_of_early_wait (s := advanceTime s) hwait (not_txDue_advanceTime hearly), txView_advanceTime]
  · rw [txView_tick_of_firing b hwait hcmp,
      txFire_of_early (s := advanceTime s) hlen hcur (not_txDue_advanceTime hearly)]
    rfl

/-- Settles O37: a free buffer's cursor is 0 (R58), so the level was the idle one before. -/
theorem idleFiringIsAHeartbeat : Obligations.IdleFiringIsAHeartbeat := by
  intro b s hwait hcmp hlen
  have hview : txView (tick b s) = { txView s with busOut := true, txCmp := s.time + 1#32 + 2291#32 } := by
    rw [txView_tick_of_firing b hwait hcmp, txFire_of_free (s := advanceTime s) hlen]
    rfl
  refine ⟨hview, fun hsafe hidle => ?_⟩
  have hlevel : (tick b s).busOut = true := congrArg TxView.busOut hview
  rw [hlevel, hidle (txCur_eq_zero_of_free hsafe hlen)]

/-- Settles O38: run 0 starts from a TX_NEXT that is the firing's own instant, the advanced TIME. -/
theorem firingStartsTheDrain : Obligations.FiringStartsTheDrain := by
  intro b s hwait hcmp hlen hcur
  rw [txView_tick_of_firing b hwait hcmp, txFire_of_drain_start (s := advanceTime s) hlen hcur]
  simp [txView, addTicks, rearmTicks, runLevel]

/-- Settles O39: TX_NEXT moves on from the old TX_NEXT, the compare is armed from this instant. -/
theorem runEndStartsTheNextRun : Obligations.RunEndStartsTheNextRun := by
  intro b s i hi hpos hlt hend hdue
  have hlen : s.txLen ≠ 0#16 := by bv_omega
  have hcur : s.txCur ≠ 0#16 := by bv_omega
  rw [txView_tick, txStep_of_run_end (s := advanceTime s) hlen hcur hend ((txDue_advanceTime s).mpr hdue),
    txAct_of_lt (by simpa [hi] using hlt)]
  simp [txView, hi, addTicks, rearmTicks, runLevel]

/-- Settles O40: with the cursor past the last run `tx_act()` completes the drain. -/
theorem lastRunEndCompletesTheDrain : Obligations.LastRunEndCompletesTheDrain := by
  intro b s hlen hlast hend hdue
  have hcur : s.txCur ≠ 0#16 := hlast ▸ hlen
  rw [txView_tick, txStep_of_run_end (s := advanceTime s) hlen hcur hend ((txDue_advanceTime s).mpr hdue),
    txAct_of_le (by simp [hlast])]
  rfl

end Sys2Proof.Machine

/-! PROOFS. Runs on the wire (R143, R144, R147 to R149): a run in progress counts its ticks and waits for its end, the
next run starts at the exact instant it ends, and after the last run the line stays idle. -/

namespace Sys2Proof.Machine

section ticks
variable (b : Level) (bs : List Level) (s : State)

@[simp] theorem tick_time : (tick b s).time = s.time + 1#32 := by
  obtain ⟨v, w, e⟩ := tick_eq_setTx_setRx b s
  rw [e]; rfl

@[simp] theorem tick_txBuf : (tick b s).txBuf = s.txBuf := by simp [tick]

@[simp] theorem ticks_txBuf : (ticks bs s).txBuf = s.txBuf := by
  induction bs generalizing s with
  | nil => rfl
  | cons b bs ih => rw [ticks, ih, tick_txBuf]

end ticks

/-! ### A run in progress -/

/-- A message is being driven, `j` ticks into a run of `d` ticks: TX_NEXT is the run's end, the compare comes
`max(d − MARGIN_US, 1)` ticks after its start, and from then on TX_WAIT is set (R144, R148). -/
structure InRun (s : State) (d j : Nat) : Prop where
  held : s.txLen ≠ 0#16
  started : s.txCur ≠ 0#16
  short : d < 2 ^ 16
  inside : j < d
  ends : nextTicks s + j = d
  waits : s.txWait = decide (rearmTicks s.params.marginUs d ≤ j)
  armed : s.txWait = false → cmpTicks s + j = rearmTicks s.params.marginUs d

/-- The next tick brings TIME to TX_NEXT exactly when one tick is left to it. -/
theorem toInt_sub_txNext_neg_iff (s : State) (hpos : 1 ≤ nextTicks s) (h : nextTicks s < 2 ^ 31) :
    (s.time + 1#32 - s.txNext).toInt < 0 ↔ nextTicks s ≠ 1 := by
  have hadv : nextTicks (advanceTime s) + 1 = nextTicks s := toNat_sub_advance s.txNext s.time hpos
  rw [← Int.not_le, ← txDue_advanceTime, txDue_iff _ (by omega)]
  omega

theorem fires_iff (s : State) : s.time + 1#32 = s.txCmp ↔ cmpTicks s = 1 := by
  unfold cmpTicks; bv_omega

section run
variable {s : State} {d j : Nat}

/-- Before its last tick a run in progress only starts to wait, at the tick `max(d − MARGIN_US, 1)` (R144, R148). -/
theorem InRun.txView_tick (h : InRun s d j) (b : Level) (hj : j + 1 < d) :
    txView (tick b s) = { txView s with txWait := decide (rearmTicks s.params.marginUs d ≤ j + 1) } := by
  obtain ⟨hheld, hstarted, hshort, _, hends, hwaits, harmed⟩ := h
  obtain ⟨hquiet, hwaiting, hfiring⟩ := earlyFiringWaitsForTheRunEnd b s
  have hearly : (s.time + 1#32 - s.txNext).toInt < 0 :=
    (toInt_sub_txNext_neg_iff s (by omega) (by omega)).mpr (by omega)
  cases hwait : s.txWait with
  | true =>
    have hpast : rearmTicks s.params.marginUs d ≤ j := by simpa [hwait] using hwaits
    rw [hwaiting hwait hearly, decide_eq_true (by omega), ← hwait]
    rfl
  | false =>
    have hcmp := harmed hwait
    by_cases hfire : s.time + 1#32 = s.txCmp
    · have hone := (fires_iff s).mp hfire
      rw [hfiring hwait hfire hheld hstarted hearly, decide_eq_true (by omega)]
    · have hnot := mt (fires_iff s).mpr hfire
      have hahead : j < rearmTicks s.params.marginUs d := by simpa [hwait] using hwaits
      rw [hquiet hwait hfire, decide_eq_false (by omega), ← hwait]
      rfl

theorem InRun.after_tick (h : InRun s d j) (b : Level) (hj : j + 1 < d) : InRun (tick b s) d (j + 1) := by
  have hview := h.txView_tick b hj
  obtain ⟨hheld, hstarted, hshort, _, hends, hwaits, harmed⟩ := h
  simp only [txView, TxView.mk.injEq] at hview
  obtain ⟨-, hlen, hcur, hnext, hcmp, hwait⟩ := hview
  have hadv := toNat_sub_advance s.txNext s.time (by rw [← nextTicks]; omega)
  refine ⟨hlen ▸ hheld, hcur ▸ hstarted, hshort, hj, ?_, by rw [hwait, tick_params], fun hnot => ?_⟩
  · rw [nextTicks, hnext, tick_time]
    unfold nextTicks at hends
    omega
  · have hahead : j + 1 < rearmTicks s.params.marginUs d := by simpa [hwait] using hnot
    have hidle : s.txWait = false := by rw [hwaits]; exact decide_eq_false (by omega)
    have hcount := harmed hidle
    have hadv' := toNat_sub_advance s.txCmp s.time (by rw [← cmpTicks]; omega)
    rw [cmpTicks, hcmp, tick_time, tick_params]
    unfold cmpTicks at hcount
    omega

/-- Until the run's end only TX_WAIT moves. -/
theorem InRun.after_ticks (h : InRun s d j) (bs : List Level) (hbs : j + bs.length < d) :
    InRun (ticks bs s) d (j + bs.length)
      ∧ txView (ticks bs s)
          = { txView s with txWait := decide (rearmTicks s.params.marginUs d ≤ j + bs.length) } := by
  induction bs generalizing s j with
  | nil => exact ⟨h, by rw [List.length_nil, Nat.add_zero, ← h.waits]; rfl⟩
  | cons b bs ih =>
    rw [List.length_cons] at hbs
    obtain ⟨hrun, hview⟩ := ih (h.after_tick b (by omega)) (by omega)
    rw [List.length_cons, Nat.add_comm bs.length, ← Nat.add_assoc]
    refine ⟨hrun, hview.trans ?_⟩
    rw [h.txView_tick b (by omega), tick_params]

/-- At its last tick a run is waiting, or fires: TIME reaches TX_NEXT. -/
theorem InRun.ends_at (h : InRun s d j) (hj : j + 1 = d) :
    (s.txWait = true ∨ s.time + 1#32 = s.txCmp) ∧ s.time + 1#32 = s.txNext := by
  obtain ⟨_, _, _, _, hends, hwaits, harmed⟩ := h
  refine ⟨?_, by unfold nextTicks at hends; bv_omega⟩
  cases hwait : s.txWait with
  | true => exact .inl rfl
  | false =>
    have hahead : j < rearmTicks s.params.marginUs d := by simpa [hwait] using hwaits
    have hcount := harmed hwait
    have hle : rearmTicks s.params.marginUs d ≤ d := by rw [rearmTicks]; omega
    exact .inr ((fires_iff s).mpr (by omega))

end run

/-- A run that has just started is in its tick 0. -/
theorem inRun_of_start {s : State} {d : Nat} (hwait : s.txWait = false) (hlen : s.txLen ≠ 0#16)
    (hcur : s.txCur ≠ 0#16) (hshort : d < 2 ^ 16) (hpos : 0 < d) (hnext : s.txNext = addTicks s.time d)
    (hcmp : s.txCmp = addTicks s.time (rearmTicks s.params.marginUs d)) : InRun s d 0 := by
  have hrearm : 1 ≤ rearmTicks s.params.marginUs d ∧ rearmTicks s.params.marginUs d ≤ d := by
    rw [rearmTicks]; omega
  refine ⟨hlen, hcur, hshort, hpos, ?_, ?_, fun _ => ?_⟩
  · rw [nextTicks, hnext, toNat_addTicks_sub _ _ (by omega), Nat.add_zero]
  · rw [hwait, decide_eq_false (by omega)]
  · rw [cmpTicks, hcmp, toNat_addTicks_sub _ _ (by omega), Nat.add_zero]

/-- Settles O41, from the count of a run in progress. -/
theorem waitLastsTheMargin : Obligations.WaitLastsTheMargin := by
  intro s d bs hwait hlen hcur hshort hnext hcmp hbs
  have hrun : InRun s d 0 := inRun_of_start hwait hlen hcur hshort (by omega) hnext hcmp
  obtain ⟨-, hview⟩ := hrun.after_ticks bs (by omega)
  simp only [txView, TxView.mk.injEq, Nat.zero_add] at hview
  obtain ⟨hout, hlen', hcur', -, -, hwait'⟩ := hview
  exact ⟨by rw [hwait', decide_eq_true_iff, rearmTicks], hout, hcur', hlen'⟩

/-! ### The runs of a message -/

theorem runStart_succ (s : State) (k : Nat) : runStart s (k + 1) = runStart s k + runTicks s k := by
  simp [runStart, List.range_succ]

/-- The Scheduler drives the message of `m`, `j` ticks into its run `k` (R143). -/
structure Drives (m s : State) (k j : Nat) : Prop where
  txBuf : s.txBuf = m.txBuf
  txLen : s.txLen = m.txLen
  level : s.busOut = runLevel k
  cursor : s.txCur.toNat = k + 1
  inRun : InRun s (runTicks m k) j

/-- Nothing is queued, the line is idle and no wait is on. -/
structure Rests (s : State) : Prop where
  drained : Drained s
  notWaiting : s.txWait = false

section message
variable {m s : State} {k j : Nat}

theorem Drives.after_ticks (h : Drives m s k j) (bs : List Level) (hbs : j + bs.length < runTicks m k) :
    Drives m (ticks bs s) k (j + bs.length) := by
  obtain ⟨hbuf, hlen, hlevel, hcursor, hrun⟩ := h
  obtain ⟨hrun', hview⟩ := hrun.after_ticks bs hbs
  simp only [txView, TxView.mk.injEq] at hview
  obtain ⟨hout, hlen', hcur', -, -, -⟩ := hview
  exact ⟨(ticks_txBuf bs s).trans hbuf, hlen'.trans hlen, hout.trans hlevel, by rw [hcur', hcursor], hrun'⟩

/-- A TICK that starts run `i` at this instant is followed by tick 0 of that run. -/
theorem drives_of_start (b : Level) (i : Nat) (hbuf : s.txBuf = m.txBuf) (hlen : s.txLen = m.txLen)
    (hlt : i < m.txLen.toNat) (hpos : 1 ≤ runTicks m i)
    (hview : txView (tick b s) =
      { txView s with
        busOut := runLevel i
        txCur := BitVec.ofNat 16 (i + 1)
        txNext := addTicks (s.time + 1#32) (runTicks m i)
        txCmp := addTicks (s.time + 1#32) (rearmTicks s.params.marginUs (runTicks m i))
        txWait := false }) :
    Drives m (tick b s) i 0 := by
  simp only [txView, TxView.mk.injEq] at hview
  obtain ⟨hout, hlen', hcur, hnext, hcmp, hwait⟩ := hview
  have hcursor : (tick b s).txCur.toNat = i + 1 := by
    rw [hcur, BitVec.toNat_ofNat]; omega
  refine ⟨(tick_txBuf b s).trans hbuf, hlen'.trans hlen, hout, hcursor, ?_⟩
  refine inRun_of_start hwait ?_ ?_ (readEntry m.txBuf i).isLt hpos ?_ ?_
  · rw [hlen', hlen]; bv_omega
  · bv_omega
  · rw [hnext, tick_time]
  · rw [hcmp, tick_time, tick_params]

/-- A firing that finds a message starts its run 0 (R145). -/
theorem drives_of_drain_start (b : Level) (hwait : m.txWait = false) (hcmp : m.time + 1#32 = m.txCmp)
    (hlen : m.txLen ≠ 0#16) (hcur : m.txCur = 0#16) (hpos : 1 ≤ runTicks m 0) : Drives m (tick b m) 0 0 := by
  refine drives_of_start b 0 rfl rfl (by bv_omega) hpos ?_
  rw [firingStartsTheDrain b m hwait hcmp hlen hcur]
  simp [txView, hwait, addTicks, rearmTicks, runTicks, runLevel]

/-- At the end of a run the next one starts at that instant (R143). -/
theorem Drives.next_run (h : Drives m s k j) (b : Level) (hj : j + 1 = runTicks m k) (hk : k + 1 < m.txLen.toNat)
    (hpos : 1 ≤ runTicks m (k + 1)) : Drives m (tick b s) (k + 1) 0 := by
  obtain ⟨hbuf, hlen, _, hcursor, hrun⟩ := h
  obtain ⟨hend, hnow⟩ := hrun.ends_at hj
  refine drives_of_start b (k + 1) hbuf hlen hk hpos ?_
  rw [runEndStartsTheNextRun b s (k + 1) hcursor (by omega) (hlen ▸ hk) hend (by simp [hnow]), hnow, hbuf]
  rfl

/-- At the end of the last run the Scheduler comes to rest (R147). -/
theorem Drives.rests (h : Drives m s k j) (b : Level) (hj : j + 1 = runTicks m k) (hk : k + 1 = m.txLen.toNat) :
    Rests (tick b s) := by
  obtain ⟨_, hlen, _, hcursor, hrun⟩ := h
  obtain ⟨hend, hnow⟩ := hrun.ends_at hj
  have hlast : s.txCur = s.txLen := BitVec.eq_of_toNat_eq (by rw [hcursor, hlen, hk])
  have hview := lastRunEndCompletesTheDrain b s hrun.held hlast hend (by simp [hnow])
  simp only [txView, TxView.mk.injEq] at hview
  obtain ⟨hout, hfree, -, -, -, hwait⟩ := hview
  exact ⟨⟨hfree, hout⟩, hwait⟩

/-- At rest the Scheduler does nothing or beats (R142, R146). -/
theorem Rests.after_tick (h : Rests s) (b : Level) : Rests (tick b s) := by
  obtain ⟨⟨hfree, hout⟩, hwait⟩ := h
  by_cases hcmp : s.time + 1#32 = s.txCmp
  · obtain ⟨hview, -⟩ := idleFiringIsAHeartbeat b s hwait hcmp hfree
    simp only [txView, TxView.mk.injEq] at hview
    obtain ⟨hout', hlen, -, -, -, hwait'⟩ := hview
    exact ⟨⟨hlen.trans hfree, hout'⟩, hwait'.trans hwait⟩
  · have hview := (earlyFiringWaitsForTheRunEnd b s).1 hwait hcmp
    simp only [txView, TxView.mk.injEq] at hview
    obtain ⟨hout', hlen, -, -, -, hwait'⟩ := hview
    exact ⟨⟨hlen.trans hfree, hout'.trans hout⟩, hwait'.trans hwait⟩

theorem Rests.after_ticks (h : Rests s) (bs : List Level) : Rests (ticks bs s) := by
  induction bs generalizing s with
  | nil => exact h
  | cons b bs ih => exact ih (h.after_tick b)

/-- The tick that ends a run comes as many ticks after its start as the run is long. -/
theorem Drives.last_tick (h : Drives m s k 0) (bs : List Level) (hbs : bs.length = runTicks m k) :
    ∃ as b, ticks bs s = tick b (ticks as s) ∧ Drives m (ticks as s) k as.length
      ∧ as.length + 1 = runTicks m k := by
  obtain ⟨as, b, rfl⟩ := (List.eq_nil_or_concat' bs).resolve_left fun h0 => by
    have := h.inRun.inside
    simp [h0] at hbs; omega
  rw [List.length_append, List.length_singleton] at hbs
  refine ⟨as, b, ticks_append as [b] s, ?_, hbs⟩
  simpa using h.after_ticks as (by omega)

end message

/-! ### The timeline of a drain (R149) -/

/-- A sequence of samples cut after the first `n`. -/
theorem exists_append_of_le_length (bs : List Level) (n : Nat) (h : n ≤ bs.length) :
    ∃ as cs : List Level, bs = as ++ cs ∧ as.length = n :=
  ⟨bs.take n, bs.drop n, (List.take_append_drop n bs).symm, List.length_take_of_le h⟩

/-- The next tick starts a drain, and every run of the message lasts at least a tick (R85, R145). -/
structure StartsDrain (m : State) : Prop where
  notWaiting : m.txWait = false
  fires : m.time + 1#32 = m.txCmp
  held : m.txLen ≠ 0#16
  fresh : m.txCur = 0#16
  lasting : ∀ j < m.txLen.toNat, 1 ≤ runTicks m j

section timeline
variable {m : State}

/-- Run `k` is in its tick 0 when `Σ_{j<k} dj` ticks have passed since the tick that started the drain. -/
theorem StartsDrain.drives_at_runStart (h : StartsDrain m) (k : Nat) (hk : k < m.txLen.toNat) (bs : List Level)
    (hbs : bs.length = runStart m k + 1) : Drives m (ticks bs m) k 0 := by
  induction k generalizing bs with
  | zero =>
    obtain ⟨b, rfl⟩ := List.length_eq_one_iff.mp hbs
    exact drives_of_drain_start b h.notWaiting h.fires h.held h.fresh (h.lasting 0 hk)
  | succ k ih =>
    rw [runStart_succ] at hbs
    obtain ⟨as, cs, rfl, has⟩ := exists_append_of_le_length bs (runStart m k + 1) (by omega)
    rw [List.length_append] at hbs
    obtain ⟨ds, b, e, hrun, hj⟩ := (ih (by omega) as has).last_tick cs (by omega)
    rw [ticks_append, e]
    exact hrun.next_run b hj hk (h.lasting (k + 1) hk)

/-- The Scheduler comes to rest when the sum of all durations has passed since that tick. -/
theorem StartsDrain.rests_at_end (h : StartsDrain m) (bs : List Level)
    (hbs : bs.length = runStart m m.txLen.toNat + 1) : Rests (ticks bs m) := by
  have hheld := h.held
  obtain ⟨k, hk⟩ : ∃ k, m.txLen.toNat = k + 1 := Nat.exists_eq_add_one.mpr (by bv_omega)
  rw [hk, runStart_succ] at hbs
  obtain ⟨as, cs, rfl, has⟩ := exists_append_of_le_length bs (runStart m k + 1) (by omega)
  rw [List.length_append] at hbs
  obtain ⟨ds, b, e, hrun, hj⟩ := (h.drives_at_runStart k (by omega) as has).last_tick cs (by omega)
  rw [ticks_append, e]
  exact hrun.rests b hj hk.symm

end timeline

/-- Settles O42: run `k` starts at its place in the timeline and lasts its duration; at the end of the last run the
Scheduler comes to rest and stays there. -/
theorem outputFollowsTheRunTimeline : Obligations.OutputFollowsTheRunTimeline := by
  intro s bs hwait hcmp hlen hcur hpos
  have hstart : StartsDrain s := ⟨hwait, hcmp, hlen, hcur, hpos⟩
  refine ⟨fun k hk hlo hhi => ?_, fun hpast => ?_⟩
  · obtain ⟨as, cs, rfl, has⟩ := exists_append_of_le_length bs (runStart s k + 1) hlo
    rw [runStart_succ, List.length_append] at hhi
    have hrun := (hstart.drives_at_runStart k hk as has).after_ticks cs (by omega)
    rw [ticks_append]
    exact ⟨hrun.level, hrun.txLen, hrun.cursor⟩
  · obtain ⟨as, cs, rfl, has⟩ := exists_append_of_le_length bs (runStart s s.txLen.toNat + 1) hpast
    obtain ⟨hfree, hidle⟩ := ((hstart.rests_at_end as has).after_ticks cs).drained
    rw [ticks_append]
    exact ⟨hidle, hfree⟩

end Sys2Proof.Machine

/-! PROOFS. The Receive Capture Engine (R161 to R167, R171): one sample as the engine sees it, the engine's whole view
after each kind of edge, and the interval between two edges as it is measured. -/

namespace Sys2Proof.Machine

/-! ### One sample -/

/-- The state in which `rx_edge` runs: the edge is taken note of and the elapsed time starts again (R161). -/
def edgeSeen (s : State) : State := { s with rxPrev := !s.rxPrev, rxElapsed := 0#12 }

theorem rxStep_of_edge (s : State) : rxStep (!s.rxPrev) s = rxEdge (rxElapsedNow s) (edgeSeen s) :=
  if_pos (Bool.not_ne_self s.rxPrev)

theorem rxView_tick_of_edge (s : State) :
    rxView (tick (!s.rxPrev) s) = rxView (rxEdge (rxElapsedNow s) (edgeSeen s)) := by
  rw [rxView_tick, rxStep_of_edge]

/-- Settles O45: a sample without an edge reaches no branch of `rx_edge`. -/
theorem noEdgeOnlyCountsTime : Obligations.NoEdgeOnlyCountsTime := by
  intro s
  have hstep : rxStep s.rxPrev s = { s with rxElapsed := BitVec.ofNat 12 (rxElapsedNow s) } :=
    if_neg (not_not_intro rfl)
  rw [rxView_tick, hstep]
  rfl

/-! ### One equation per case of `rx_edge` (R163 to R167) -/

theorem rxElapsedNow_of_boundary {s : State} (h : 2291 ≤ s.rxElapsed.toNat + 1) :
    rxElapsedNow s = Config.msgPeriodUs := Nat.min_eq_right h

theorem rxElapsedNow_of_intra {s : State} (h : s.rxElapsed.toNat + 1 < 2291) :
    rxElapsedNow s = s.rxElapsed.toNat + 1 := Nat.min_eq_left h.le

section cases
variable {s : State} {el : Nat}

theorem rxEdge_of_boundary_capturing (hcapt : s.rxCapt = true) : rxEdge Config.msgPeriodUs s = rxFinalize s := by
  simp [rxEdge, hcapt]

theorem rxEdge_of_boundary_free (hcapt : s.rxCapt = false) (hlen : s.rxLen = 0#16) :
    rxEdge Config.msgPeriodUs s = { s with rxCapt := true, rxCur := 0#16 } := by
  simp [rxEdge, rxBeginOrDrop, hcapt, hlen]

theorem rxEdge_of_boundary_held (hcapt : s.rxCapt = false) (hlen : s.rxLen ≠ 0#16) :
    rxEdge Config.msgPeriodUs s = s := by
  simp [rxEdge, rxBeginOrDrop, hcapt, hlen]

theorem rxEdge_of_intra_room (hel : el < 2291) (hcapt : s.rxCapt = true)
    (hroom : s.rxCur.toNat < s.params.runbufCap - 1) : rxEdge el s = rxStore el s := by
  simp [rxEdge, hel.ne, hcapt, hroom]

theorem rxEdge_of_intra_full (hel : el < 2291) (hcapt : s.rxCapt = true)
    (hfull : s.params.runbufCap - 1 ≤ s.rxCur.toNat) : rxEdge el s = rxOverrun s := by
  simp [rxEdge, hel.ne, hcapt, hfull.not_gt]

theorem rxEdge_of_intra_not_capturing (hel : el < 2291) (hcapt : s.rxCapt = false) : rxEdge el s = s := by
  simp [rxEdge, hel.ne, hcapt]

end cases

/-! ### What an edge does to the engine -/

/-- Settles O46: the edge takes the capturing half of the boundary case. -/
theorem boundaryEdgePublishesTheDatagram : Obligations.BoundaryEdgePublishesTheDatagram := by
  intro s hgap hcapt
  rw [rxView_tick_of_edge, rxElapsedNow_of_boundary hgap, rxEdge_of_boundary_capturing (s := edgeSeen s) hcapt]
  rfl

/-- Settles O47: the edge takes the other half, which asks whether a datagram is held. -/
theorem boundaryEdgeBeginsOrDrops : Obligations.BoundaryEdgeBeginsOrDrops := by
  intro s hgap hcapt
  rw [rxView_tick_of_edge, rxElapsedNow_of_boundary hgap]
  refine ⟨fun hfree => ?_, fun hheld => ?_⟩
  · rw [rxEdge_of_boundary_free (s := edgeSeen s) hcapt hfree]
    rfl
  · rw [rxEdge_of_boundary_held (s := edgeSeen s) hcapt hheld]
    rfl

/-- Settles O48: below the cap the measured time is the entry stored. -/
theorem intraEdgeStoresTheRun : Obligations.IntraEdgeStoresTheRun := by
  intro s hgap hcapt hroom
  rw [rxView_tick_of_edge, rxElapsedNow_of_intra hgap, rxEdge_of_intra_room (s := edgeSeen s) hgap hcapt hroom]
  rfl

/-- Settles O49: with the cursor at the last slot there is no room left for the run and the cap after it. -/
theorem edgeAtCapacityTruncatesTheDatagram : Obligations.EdgeAtCapacityTruncatesTheDatagram := by
  intro s hgap hcapt hfull
  rw [rxView_tick_of_edge, rxElapsedNow_of_intra hgap, rxEdge_of_intra_full (s := edgeSeen s) hgap hcapt hfull.ge]
  rfl

/-- Settles O50: `rx_edge` leaves the state in which it runs. -/
theorem intraEdgeWhileNotCapturingIsIgnored : Obligations.IntraEdgeWhileNotCapturingIsIgnored := by
  intro s hgap hcapt
  rw [rxView_tick_of_edge, rxElapsedNow_of_intra hgap, rxEdge_of_intra_not_capturing (s := edgeSeen s) hgap hcapt]
  rfl

/-! ### The interval between two edges (R162, R171) -/

theorem ticks_params (bs : List Level) (s : State) : (ticks bs s).params = s.params := by
  induction bs generalizing s with
  | nil => rfl
  | cons b bs ih => rw [ticks, ih, tick_params]

/-- `k` samples without an edge count `k` ticks, up to the cap, and do nothing else to the engine. -/
theorem rxView_ticks_without_edge {s : State} (hstart : s.rxElapsed = 0#12) (k : Nat) :
    rxView (ticks (List.replicate k s.rxPrev) s)
      = { rxView s with rxElapsed := BitVec.ofNat 12 (min k 2291) } := by
  induction k with
  | zero => simp [ticks, rxView, hstart]
  | succ k ih =>
    have hprev : (ticks (List.replicate k s.rxPrev) s).rxPrev = s.rxPrev := congrArg RxView.rxPrev ih
    have helapsed : (ticks (List.replicate k s.rxPrev) s).rxElapsed = BitVec.ofNat 12 (min k 2291) :=
      congrArg RxView.rxElapsed ih
    have hstep := noEdgeOnlyCountsTime (ticks (List.replicate k s.rxPrev) s)
    have hcount : min ((min k 2291) % 2 ^ 12 + 1) 2291 = min (k + 1) 2291 := by omega
    rw [hprev, helapsed, ih, BitVec.toNat_ofNat, hcount] at hstep
    rwa [List.replicate_succ', ticks_append]

/-- An edge sees RX_ELAPSED only as the time it measures. -/
theorem rxView_tick_of_edge_congr {s : State} {e : BitVec 12}
    (h : rxElapsedNow s = rxElapsedNow { s with rxElapsed := e }) :
    rxView (tick (!s.rxPrev) s) = rxView (tick (!s.rxPrev) { s with rxElapsed := e }) := by
  rw [rxView_tick_of_edge, h]
  exact (rxView_tick_of_edge { s with rxElapsed := e }).symm

/-- The samples before the edge count `n - 1` ticks and the edge itself one more, up to the cap (R162). -/
theorem rxView_ticks_edge_after {s : State} (hstart : s.rxElapsed = 0#12) {n : Nat} (hn : 1 ≤ n) :
    rxView (ticks (List.replicate (n - 1) s.rxPrev ++ [!s.rxPrev]) s)
      = rxView (tick (!s.rxPrev) { s with rxElapsed := BitVec.ofNat 12 (min n 2291 - 1) }) := by
  have hview := rxView_ticks_without_edge hstart (n - 1)
  have hparams := ticks_params (List.replicate (n - 1) s.rxPrev) s
  rw [ticks_append]
  generalize ticks (List.replicate (n - 1) s.rxPrev) s = t at hview hparams
  have hprev : t.rxPrev = s.rxPrev := congrArg RxView.rxPrev hview
  have helapsed : t.rxElapsed = BitVec.ofNat 12 (min (n - 1) 2291) := congrArg RxView.rxElapsed hview
  have hnow : rxElapsedNow t = rxElapsedNow { t with rxElapsed := BitVec.ofNat 12 (min n 2291 - 1) } := by
    simp only [rxElapsedNow, helapsed, BitVec.toNat_ofNat, Config.msgPeriodUs]
    omega
  calc rxView (tick (!s.rxPrev) t)
      = rxView (tick (!s.rxPrev) { t with rxElapsed := BitVec.ofNat 12 (min n 2291 - 1) }) := by
        rw [← hprev]; exact rxView_tick_of_edge_congr hnow
    _ = rxView (tick (!s.rxPrev) { s with rxElapsed := BitVec.ofNat 12 (min n 2291 - 1) }) := by
        obtain ⟨-, hcongr, -⟩ := enginesDoNotInterfere
        refine hcongr _ _ _ ?_ hparams
        exact congrArg (fun v : RxView => { v with rxElapsed := BitVec.ofNat 12 (min n 2291 - 1) }) hview

/-- Settles O51: a gap of 2291 ticks or more is measured as one of 2291. -/
theorem edgeIntervalIsMeasuredAndClamped : Obligations.EdgeIntervalIsMeasuredAndClamped := by
  intro s n hstart hn
  refine ⟨rxView_ticks_edge_after hstart hn, fun hlong => ?_⟩
  have hcap := rxView_ticks_edge_after hstart (n := 2291) (by decide)
  rw [rxView_ticks_edge_after hstart hn, Nat.min_eq_right hlong]
  exact hcap.symm

end Sys2Proof.Machine

/-! PROOFS. AccessError (R63 to R65, R204): the decoder refuses exactly the accesses the register map does not admit,
function by function, and every access it lets through answers a next state. -/

namespace Sys2Proof.Machine

/-! ### When the decoder refuses -/

theorem entryReg_eq_error_iff (count k : Nat) (mk : Nat → HostReg) :
    (∃ e, entryReg count k mk = .error e) ↔ count ≤ k := by
  unfold entryReg
  split
  case isTrue => exact iff_of_false (by simp) (by omega)
  case isFalse => exact iff_of_true ⟨_, rfl⟩ (by omega)

/-- Below the array windows the aligned offsets end with RX_ELAPSED at 0x034 (R61). -/
theorem scalarReg_eq_error_iff (a : Nat) (halign : a % 4 = 0) :
    (∃ e, scalarReg a = .error e) ↔ 0x038 ≤ a := by
  unfold scalarReg
  split
  case h_15 =>
    simp only [imp_false] at *
    exact iff_of_true ⟨_, rfl⟩ (by omega)
  all_goals simp

/-- An entry of an array window is refused from the first offset past the implemented range on. -/
theorem decodeOffset_eq_error_iff (p : Config.Params) (addr : Offset) (halign : addr.toNat % 4 = 0) :
    (∃ e, decodeOffset p addr.toNat = .error e) ↔ NotAdmitted p 4 addr := by
  have hrunv : Config.runvCap = 16 := rfl
  unfold decodeOffset
  split
  case isTrue => rw [scalarReg_eq_error_iff _ halign]; omega
  repeat' split
  case isFalse => exact iff_of_true ⟨_, rfl⟩ (by omega)
  all_goals rw [entryReg_eq_error_iff]; omega

theorem decodeAccess_eq_error_iff (p : Config.Params) (size : Nat) (addr : Offset) :
    (∃ e, decodeAccess p size addr = .error e) ↔ NotAdmitted p size addr := by
  unfold decodeAccess
  split
  case isTrue hsize => exact iff_of_true ⟨_, rfl⟩ (.inl hsize)
  case isFalse hsize =>
    obtain rfl : size = 4 := not_not.mp hsize
    split
    case isTrue halign => exact iff_of_true ⟨_, rfl⟩ (.inr (.inl halign))
    case isFalse halign => exact decodeOffset_eq_error_iff p addr (not_not.mp halign)

/-! ### What an access answers -/

/-- A write to CMD completes because every command does, and no other write can fail (R64, R202). -/
theorem writeReg_completes (v : Word) (s : State) (r : HostReg) : ∃ t, writeReg v s r = .next t := by
  obtain ⟨-, e⟩ | ⟨-, e⟩ | ⟨-, e⟩ | ⟨_, -, e⟩ | ⟨_, -, e⟩ | e := writeReg_cases v s r
  · rw [e]
    exact exec_completes _ s
  all_goals exact ⟨_, e⟩

theorem afterAct_of_accessError (i : Input) (s : State) (addr : Offset) (dir : Direction)
    (h : act i s = .fault (.accessError addr dir)) : afterAct i s = busErrorData dir s := by
  rw [afterAct, h]

/-- Settles O27: the decoder's refusals are `NotAdmitted`, and a read or write faults with the decoder or completes. -/
theorem accessErrorExactlyWhenTheMapDoesNotAdmit : Obligations.AccessErrorExactlyWhenTheMapDoesNotAdmit := by
  intro s size addr v
  rw [← decodeAccess_eq_error_iff]
  constructor
  · rintro ⟨e, he⟩
    have hread : act (.hostRead size addr) s = .fault (.accessError addr .read) := by
      simp only [act, hostRead, he, accessError]
    have hwrite : act (.hostWrite size addr v) s = .fault (.accessError addr .write) := by
      simp only [act, hostWrite, he, accessError]
    exact ⟨hread, hwrite, afterAct_of_accessError _ s addr _ hread, afterAct_of_accessError _ s addr _ hwrite⟩
  · intro hadmitted
    constructor
    · obtain ⟨_, -, hread⟩ | ⟨e, he, -⟩ := hostRead_cases size addr s
      · exact ⟨_, hread⟩
      · exact absurd ⟨e, he⟩ hadmitted
    · obtain ⟨r, -, hwrite⟩ | ⟨e, he, -⟩ := hostWrite_cases size addr v s
      · rw [act, hwrite]
        exact writeReg_completes v s r
      · exact absurd ⟨e, he⟩ hadmitted

end Sys2Proof.Machine

/-! PROOFS. MARGIN_US and the wire (R247, R149): until a drain starts the Scheduler never reads MARGIN_US, and from then
on the timeline of R149, in which it does not occur, fixes the output and the buffer's release. -/

namespace Sys2Proof.Machine

/-! ### Two blocks that may differ in MARGIN_US -/

/-- All that the Scheduler reads is alike in two states, the parameters excepted. -/
structure TxAlike (s u : State) : Prop where
  view : txView s = txView u
  time : s.time = u.time
  txBuf : s.txBuf = u.txBuf

/-- No run has started, and every run of the message, if there is one, lasts at least a tick (R85). -/
structure NotStarted (s : State) : Prop where
  notWaiting : s.txWait = false
  fresh : s.txCur = 0#16
  lasting : ∀ j < s.txLen.toNat, 1 ≤ runTicks s j

section alike
variable {s u : State}

/-- The Scheduler's elements one by one, as far as the cases of a tick without a run ask for them. -/
theorem TxAlike.fields (h : TxAlike s u) :
    s.busOut = u.busOut ∧ s.txLen = u.txLen ∧ s.txCur = u.txCur ∧ s.txCmp = u.txCmp ∧ s.txWait = u.txWait := by
  have hview := h.view
  simp only [txView, TxView.mk.injEq] at hview
  obtain ⟨hout, hlen, hcur, -, hcmp, hwait⟩ := hview
  exact ⟨hout, hlen, hcur, hcmp, hwait⟩

theorem TxAlike.runTicks_eq (h : TxAlike s u) : runTicks s = runTicks u := by
  funext j
  rw [runTicks, runTicks, h.txBuf]

theorem TxAlike.notStarted (h : TxAlike s u) (hs : NotStarted s) : NotStarted u := by
  obtain ⟨-, hlen, hcur, -, hwait⟩ := h.fields
  exact ⟨hwait ▸ hs.notWaiting, hcur ▸ hs.fresh, hlen ▸ h.runTicks_eq ▸ hs.lasting⟩

/-! ### Before the drain -/

/-- A tick that starts no drain beats or does nothing, and either way without reading MARGIN_US (R142, R146). -/
theorem txView_tick_of_no_drain_start (b : Level) (hwait : s.txWait = false)
    (hfree : s.time + 1#32 = s.txCmp → s.txLen = 0#16) :
    txView (tick b s) =
      if s.time + 1#32 = s.txCmp then { txView s with busOut := true, txCmp := s.time + 1#32 + 2291#32 }
      else txView s := by
  split
  case isTrue hcmp => exact (idleFiringIsAHeartbeat b s hwait hcmp (hfree hcmp)).1
  case isFalse hcmp => exact (earlyFiringWaitsForTheRunEnd b s).1 hwait hcmp

theorem NotStarted.after_tick (h : NotStarted s) (b : Level) (hfree : s.time + 1#32 = s.txCmp → s.txLen = 0#16) :
    NotStarted (tick b s) := by
  obtain ⟨hwait, hcur, hlasting⟩ := h
  have hview := txView_tick_of_no_drain_start b hwait hfree
  have hkept : (tick b s).txWait = s.txWait ∧ (tick b s).txCur = s.txCur ∧ (tick b s).txLen = s.txLen := by
    split at hview <;> simp only [txView, TxView.mk.injEq] at hview <;> simp [hview]
  obtain ⟨hwait', hcur', hlen'⟩ := hkept
  refine ⟨hwait'.trans hwait, hcur'.trans hcur, fun j hj => ?_⟩
  rw [runTicks, tick_txBuf]
  exact hlasting j (hlen' ▸ hj)

theorem TxAlike.after_tick (h : TxAlike s u) (b : Level) (hwait : s.txWait = false)
    (hfree : s.time + 1#32 = s.txCmp → s.txLen = 0#16) : TxAlike (tick b s) (tick b u) := by
  obtain ⟨-, hlen, -, hcmp, hwait'⟩ := h.fields
  have hfree' : u.time + 1#32 = u.txCmp → u.txLen = 0#16 := by rwa [← h.time, ← hcmp, ← hlen]
  refine ⟨?_, by rw [tick_time, tick_time, h.time], by rw [tick_txBuf, tick_txBuf, h.txBuf]⟩
  rw [txView_tick_of_no_drain_start b hwait hfree,
    txView_tick_of_no_drain_start b (hwait' ▸ hwait) hfree', h.view, h.time, hcmp]

/-! ### From the drain start on -/

/-- Every tick after the drain start lies in one of the first `n` runs, or past them all. -/
theorem exists_run_or_past_runs (s : State) (n t : Nat) (ht : 0 < t) :
    (∃ k < n, runStart s k < t ∧ t ≤ runStart s (k + 1)) ∨ runStart s n < t := by
  induction n with
  | zero => exact .inr ht
  | succ n ih =>
    obtain ⟨k, hk, hin⟩ | hpast := ih
    · exact .inl ⟨k, by omega, hin⟩
    · obtain hpast' | hin := Nat.lt_or_ge (runStart s (n + 1)) t
      · exact .inr hpast'
      · exact .inl ⟨n, by omega, hpast, hin⟩

/-- The timeline of a drain is fixed by the durations alone (R149). -/
theorem TxAlike.wire_eq_of_drain_start (h : TxAlike s u) (hs : NotStarted s) (hcmp : s.time + 1#32 = s.txCmp)
    (hheld : s.txLen ≠ 0#16) (bs : List Level) (hbs : 0 < bs.length) :
    (ticks bs s).busOut = (ticks bs u).busOut ∧ (ticks bs s).txLen = (ticks bs u).txLen := by
  obtain ⟨-, hlen, -, hcmp', -⟩ := h.fields
  have hu := h.notStarted hs
  have hstart : runStart u = runStart s := by
    funext k
    rw [runStart, runStart, h.runTicks_eq]
  obtain ⟨hrunS, hendS⟩ := outputFollowsTheRunTimeline s bs hs.notWaiting hcmp hheld hs.fresh hs.lasting
  obtain ⟨hrunU, hendU⟩ := outputFollowsTheRunTimeline u bs hu.notWaiting (by rw [← h.time, hcmp, hcmp'])
    (hlen ▸ hheld) hu.fresh hu.lasting
  rw [← hlen, hstart] at hrunU hendU
  obtain ⟨k, hk, hlo, hhi⟩ | hpast := exists_run_or_past_runs s s.txLen.toNat bs.length hbs
  · obtain ⟨houtS, hlenS, -⟩ := hrunS k hk hlo hhi
    obtain ⟨houtU, hlenU, -⟩ := hrunU k hk hlo hhi
    exact ⟨houtS.trans houtU.symm, hlenS.trans hlenU.symm⟩
  · obtain ⟨houtS, hlenS⟩ := hendS hpast
    obtain ⟨houtU, hlenU⟩ := hendU hpast
    exact ⟨houtS.trans houtU.symm, hlenS.trans hlenU.symm⟩

/-- The two blocks stay alike up to the tick that starts a drain, and from it on follow one timeline. -/
theorem TxAlike.wire_eq (h : TxAlike s u) (hs : NotStarted s) (bs : List Level) :
    (ticks bs s).busOut = (ticks bs u).busOut ∧ (ticks bs s).txLen = (ticks bs u).txLen := by
  induction bs generalizing s u with
  | nil =>
    obtain ⟨hout, hlen, -⟩ := h.fields
    exact ⟨hout, hlen⟩
  | cons b bs ih =>
    by_cases hdrain : s.time + 1#32 = s.txCmp ∧ s.txLen ≠ 0#16
    · obtain ⟨hcmp, hheld⟩ := hdrain
      exact h.wire_eq_of_drain_start hs hcmp hheld (b :: bs) (by simp)
    · have hfree : s.time + 1#32 = s.txCmp → s.txLen = 0#16 := fun hcmp =>
        not_not.mp fun hheld => hdrain ⟨hcmp, hheld⟩
      exact ih (h.after_tick b hs.notWaiting hfree) (hs.after_tick b hfree)

end alike

/-- Settles O43: the two blocks are alike but for MARGIN_US. -/
theorem marginDoesNotChangeTheWire : Obligations.MarginDoesNotChangeTheWire := by
  intro s m n bs hwait hcur hpos
  have halike : TxAlike { s with params := { s.params with marginUs := m } }
      { s with params := { s.params with marginUs := n } } := ⟨rfl, rfl, rfl⟩
  exact halike.wire_eq ⟨hwait, hcur, hpos⟩ bs

end Sys2Proof.Machine
